-- ==== Sys2Proof/Word.lean ====
section
/-! DEFINITION. The word types of the engine: a byte (00_scope R10) and the 32-bit bus word (00_scope R7
`BUS_WIDTH`), which is also SHA-1's word (40 R111). Plain `BitVec`s, so that the library's lemmas apply. -/

namespace Sys2Proof

/-- `Byte` = `UInt8` (00_scope R10). -/
abbrev Byte := BitVec 8

/-- The 32-bit value of a register, of a bus transaction (00_scope R7 `BUS_WIDTH`) and of SHA-1 (40 R111). -/
abbrev Word := BitVec 32

end Sys2Proof
end

