-- ==== Sys2Proof/Config.lean ====
section
/-! DEFINITION. The fixed parameters of the engine (00_scope R7) and the configuration parameters of a part
(00_scope R8). The spec leaves no value of the engine open (93 Part A), so there is no free value here. -/

namespace Sys2Proof

/-- The configuration parameters a model takes as arguments (00_scope R8). `LATENCY`, on which no rule depends, is
the place of the engine's turn among the inputs (log 4). -/
structure Config where
  /-- `BASE`: the platform address of the engine's offset window. -/
  base : Nat
  /-- `KEY_RAM_BYTES`: the size of the key RAM, the longest key the part accepts. -/
  keyRamBytes : Nat
  /-- `CRYPTO_AVAILABLE`: false is a part whose HMAC-SHA-1 unit is absent or disabled. -/
  cryptoAvailable : Bool
  /-- `REJECT_EMPTY_KEY`: true makes a zero-length key a key-import failure. -/
  rejectEmptyKey : Bool
deriving DecidableEq, Repr

/-- The defaults of 00_scope R8. DESIGN CHOICE for `base` (log 1, log 5): the spec gives `BASE` no default; safe, since
every statement is about an arbitrary `Config`. -/
def Config.standard : Config :=
  { base := 0, keyRamBytes := 1024, cryptoAvailable := true, rejectEmptyKey := false }

/-- `DIGITS` (00_scope R7). -/
def digits : Nat := 6

/-- `MODULUS` = 10^`DIGITS` (00_scope R7). -/
def modulus : Nat := 1000000

/-- `STEP`: 30 seconds (00_scope R7). -/
def timeStepSeconds : Nat := 30

/-- `BLOCK_BYTES`: the SHA-1 block size, HMAC's B (00_scope R7). -/
def blockBytes : Nat := 64

/-- `ID_VALUE` (00_scope R7, 10 R25): ASCII "OTP1". -/
def idValue : Word := 0x4F545031#32

/-- The offset window holds 2^`OFFSET_BITS` byte offsets (00_scope R7, 10 R45). -/
def windowBytes : Nat := 0x20000

/-- The offset of KEY[0] (10 R22). -/
def keyWindow : Nat := 0x10000

end Sys2Proof
end

