-- ==== Sys2Proof/Syntax.lean ====
section
/-! DEFINITION. The syntax: the instructions (one constructor per row of the opcode table), the registers of the map
(10 R22), the host's bus transactions (20 R60), what can arrive at the engine, and the host-program statements
(30 R88, R89). -/

namespace Sys2Proof

/-- An instruction: the decoded value of a host write to CTRL (30 R80, R81, R84). Every command carries IRQ_EN, its one
operand field (30 R83); CFG also the OP it stores (30 R87); SRST the 31 bits it ignores (30 R82). The bits 30:9 and 3:1
of the other rows change nothing (30 R86) and are not kept (log 11). -/
inductive Instr where
  /-- Stage: big-endian counter encoder (41 R131). -/
  | enc (irqEn : Bool)
  /-- Stage: HMAC-SHA-1 (40 R112). -/
  | mac (irqEn : Bool)
  /-- Stage: dynamic truncation (41 R134). -/
  | trunc (irqEn : Bool)
  /-- Stage: modulo 10^6 (41 R136). -/
  | mod (irqEn : Bool)
  /-- Stage: six-digit ASCII rendering (41 R138). -/
  | fmt (irqEn : Bool)
  /-- Stage: time-step divider (41 R140). -/
  | tstep (irqEn : Bool)
  /-- Composite: ENC, MAC, TRUNC, MOD, FMT (42 R161). -/
  | hotp (irqEn : Bool)
  /-- Composite: TSTEP, then HOTP (42 R163). -/
  | totp (irqEn : Bool)
  /-- Soft reset (30 R82, 70 R213). -/
  | srst (ignored : BitVec 31)
  /-- Configuration write (30 R87). -/
  | cfg (irqEn : Bool) (op : BitVec 4)
  /-- Reserved OP 0x0 (30 R85). -/
  | rsvdOp0 (irqEn : Bool)
  /-- Reserved OP 0x7 (30 R85). -/
  | rsvdOp7 (irqEn : Bool)
  /-- Reserved OP 0xA (30 R85). -/
  | rsvdOpA (irqEn : Bool)
  /-- Reserved OP 0xB (30 R85). -/
  | rsvdOpB (irqEn : Bool)
  /-- Reserved OP 0xC (30 R85). -/
  | rsvdOpC (irqEn : Bool)
  /-- Reserved OP 0xD (30 R85). -/
  | rsvdOpD (irqEn : Bool)
  /-- Reserved OP 0xE (30 R85). -/
  | rsvdOpE (irqEn : Bool)
  /-- Reserved OP 0xF (30 R85). -/
  | rsvdOpF (irqEn : Bool)
deriving DecidableEq, Repr

/-- The registers of the map (10 R22). -/
inductive Reg where
  | id | ctrl | status | hwcfg | keyLen
  | counterHi | counterLo | timeHi | timeLo | msgHi | msgLo
  | digest (i : Fin 5)
  | offset | trunc | code | ascii0 | ascii1
deriving DecidableEq, Repr

/-- What a mapped offset holds: a register, or word `j` of the key RAM (10 R22, R39). -/
inductive Target where
  | reg (r : Reg)
  | keyWord (j : Nat)
deriving DecidableEq, Repr

/-- The direction of a bus transaction, with the value of a write (20 R60). -/
inductive BusOp where
  | read
  | write (v : Word)
deriving DecidableEq, Repr

/-- One bus transaction, as the platform's bus carries it: a byte address, the four byte lanes (bit i is the lane of
bits 8i+7:8i; 20 R63, log 13) and the direction. -/
structure Access where
  addr : Nat
  lanes : BitVec 4
  op : BusOp
deriving DecidableEq, Repr

/-- What arrives at the engine, or moves in it, in the one total order of 20 R72 (log 2). -/
inductive Input where
  /-- A host step: one bus transaction (20 R60). -/
  | bus (a : Access)
  /-- The engine's turn: its completion step, if it is enabled (60 R185). -/
  | engine
  /-- The reset input is asserted (70 R210). -/
  | resetAssert
  /-- The reset input is released (70 R210). -/
  | resetRelease
  /-- The host's WAITDONE loop (30 R89). -/
  | waitDone
  /-- The host's WAITIRQ (30 R89). -/
  | waitIrq
deriving DecidableEq, Repr

/-- A statement of a host program: the two basic statements (30 R88; the result an `RD` expects is a remark on a run,
not an effect) and the pseudo-instructions (30 R89). -/
inductive Stmt where
  | wr (off : Nat) (v : Word)
  | rd (off : Nat)
  /-- `CMD m` and `CMD m, IRQ`, with OP(m) written out. -/
  | cmd (op : BitVec 4) (irq : Bool)
  | srst
  | waitDone
  | waitIrq
  | clrst
  /-- `LDKEY 0xhh..`, with the key's bytes. -/
  | ldkey (bytes : List Byte)
  /-- `LDKEY "text"`. -/
  | ldkeyText (text : String)
  | ldctr (c : Nat)
  | ldtime (t : Nat)
  | ldmsg (bytes : Vector Byte 8)
  | lddig (bytes : Vector Byte 20)
deriving DecidableEq, Repr

end Sys2Proof
end

