-- ==== Sys2Proof/WellFormed.lean ====
section
/-! DEFINITION. The checks on syntax. An `Instr` has operands of exactly the encoded widths, so every term of it is well
formed and no check stands here for it; a part's parameters (00_scope R8) and a host statement (30 R88, R89) can be ill
formed. -/

namespace Sys2Proof

/-- The legal ranges of 00_scope R8. -/
abbrev Config.legal (c : Config) : Prop :=
  c.base % windowBytes = 0 ∧ c.keyRamBytes % 4 = 0 ∧ 64 ≤ c.keyRamBytes ∧ c.keyRamBytes ≤ 65536

/-- `off` is an integer 0 ≤ off < 2^17 (20 R60). -/
def offsetFits (off : Nat) : Bool := off < windowBytes

/-- A counter or a time is a 64-bit unsigned integer; a host model must reject a wider one (41 R131, 93 A1, A8). -/
def fits64 (n : Nat) : Bool := n < 2 ^ 64

/-- Every byte of the key has an offset in the window above 0x10000 (10 R22, R45). -/
def keyFitsWindow (bytes : List Byte) : Bool := bytes.length ≤ windowBytes - keyWindow

/-- The UTF-8 bytes of a secret text (30 R89, 70 R217). -/
def utf8Bytes (text : String) : List Byte := text.toUTF8.data.toList.map UInt8.toBitVec

/-- A host statement whose operands the interface can carry. -/
def Stmt.wellFormed : Stmt → Bool
  | .wr off _ => offsetFits off
  | .rd off => offsetFits off
  | .ldkey bytes => keyFitsWindow bytes
  | .ldkeyText text => keyFitsWindow (utf8Bytes text)
  | .ldctr c => fits64 c
  | .ldtime t => fits64 t
  | .cmd _ _ | .srst | .waitDone | .waitIrq | .clrst | .ldmsg _ | .lddig _ => true

end Sys2Proof
end

