-- ==== Sys2Proof/Decode.lean ====
section
/-! DEFINITION. Decoding: the command word (30 R80 to R87), its encoder, the opcode table as rows of mask and match, and
the address decode of a bus transaction (20 R61 to R64), which rejects by name. -/

namespace Sys2Proof

/-- CTRL bit 31 (10 R26). -/
def ctrlSrst (w : Word) : Bool := w.getLsbD 31

/-- CTRL bit 0 (10 R26). -/
def ctrlStart (w : Word) : Bool := w.getLsbD 0

/-- CTRL bit 8 (10 R26). -/
def ctrlIrqEn (w : Word) : Bool := w.getLsbD 8

/-- CTRL bits 7:4 (10 R26). -/
def ctrlOp (w : Word) : BitVec 4 := w.extractLsb' 4 4

/-- The command whose code is `op` (30 R84, R85). -/
def commandOf (op : BitVec 4) (irqEn : Bool) : Instr :=
  match op with
  | 0x1#4 => .enc irqEn
  | 0x2#4 => .mac irqEn
  | 0x3#4 => .trunc irqEn
  | 0x4#4 => .mod irqEn
  | 0x5#4 => .fmt irqEn
  | 0x6#4 => .tstep irqEn
  | 0x8#4 => .hotp irqEn
  | 0x9#4 => .totp irqEn
  | 0x0#4 => .rsvdOp0 irqEn
  | 0x7#4 => .rsvdOp7 irqEn
  | 0xA#4 => .rsvdOpA irqEn
  | 0xB#4 => .rsvdOpB irqEn
  | 0xC#4 => .rsvdOpC irqEn
  | 0xD#4 => .rsvdOpD irqEn
  | 0xE#4 => .rsvdOpE irqEn
  | _ => .rsvdOpF irqEn

/-- The instruction of a CTRL write, in the decoding order of 30 R81: SRST first, then START. (Its step 2, busy, is not a
matter of the word; every meaning checks it.) Total: every 32-bit value is an instruction (30 R86). -/
def decode (w : Word) : Instr :=
  if ctrlSrst w then .srst (w.setWidth 31)
  else if ctrlStart w then commandOf (ctrlOp w) (ctrlIrqEn w)
  else .cfg (ctrlIrqEn w) (ctrlOp w)

/-- The fields of format CMD put together, reserved bits 0 (30 R80). -/
def ctrlFields (start : Bool) (op : BitVec 4) (irqEn : Bool) : Word :=
  (if start then 0x1#32 else 0#32) ||| (op.setWidth 32 <<< 4) ||| (if irqEn then 0x100#32 else 0#32)

/-- The word of an instruction (30 R84, R82, R87), reserved bits 0. -/
def encode : Instr → Word
  | .enc irqEn => ctrlFields true 0x1#4 irqEn
  | .mac irqEn => ctrlFields true 0x2#4 irqEn
  | .trunc irqEn => ctrlFields true 0x3#4 irqEn
  | .mod irqEn => ctrlFields true 0x4#4 irqEn
  | .fmt irqEn => ctrlFields true 0x5#4 irqEn
  | .tstep irqEn => ctrlFields true 0x6#4 irqEn
  | .hotp irqEn => ctrlFields true 0x8#4 irqEn
  | .totp irqEn => ctrlFields true 0x9#4 irqEn
  | .srst ignored => 0x80000000#32 ||| ignored.setWidth 32
  | .cfg irqEn op => ctrlFields false op irqEn
  | .rsvdOp0 irqEn => ctrlFields true 0x0#4 irqEn
  | .rsvdOp7 irqEn => ctrlFields true 0x7#4 irqEn
  | .rsvdOpA irqEn => ctrlFields true 0xA#4 irqEn
  | .rsvdOpB irqEn => ctrlFields true 0xB#4 irqEn
  | .rsvdOpC irqEn => ctrlFields true 0xC#4 irqEn
  | .rsvdOpD irqEn => ctrlFields true 0xD#4 irqEn
  | .rsvdOpE irqEn => ctrlFields true 0xE#4 irqEn
  | .rsvdOpF irqEn => ctrlFields true 0xF#4 irqEn

/-- A row of the opcode table: its mnemonic, and the words it matches. -/
structure OpRow where
  mnemonic : String
  mask : Word
  pattern : Word
deriving DecidableEq, Repr

/-- The word has the row's pattern under the row's mask. -/
def OpRow.admits (r : OpRow) (w : Word) : Bool := (w &&& r.mask) == r.pattern

/-- The opcode table (30 R84, R85, R82, R87; spec/opcode_table.json). -/
def opcodeTable : List OpRow :=
  [ ⟨"ENC", 0x800000F1#32, 0x00000011#32⟩,
    ⟨"MAC", 0x800000F1#32, 0x00000021#32⟩,
    ⟨"TRUNC", 0x800000F1#32, 0x00000031#32⟩,
    ⟨"MOD", 0x800000F1#32, 0x00000041#32⟩,
    ⟨"FMT", 0x800000F1#32, 0x00000051#32⟩,
    ⟨"TSTEP", 0x800000F1#32, 0x00000061#32⟩,
    ⟨"HOTP", 0x800000F1#32, 0x00000081#32⟩,
    ⟨"TOTP", 0x800000F1#32, 0x00000091#32⟩,
    ⟨"SRST", 0x80000000#32, 0x80000000#32⟩,
    ⟨"CFG", 0x80000001#32, 0x00000000#32⟩,
    ⟨"RSVD_OP0", 0x800000F1#32, 0x00000001#32⟩,
    ⟨"RSVD_OP7", 0x800000F1#32, 0x00000071#32⟩,
    ⟨"RSVD_OPA", 0x800000F1#32, 0x000000A1#32⟩,
    ⟨"RSVD_OPB", 0x800000F1#32, 0x000000B1#32⟩,
    ⟨"RSVD_OPC", 0x800000F1#32, 0x000000C1#32⟩,
    ⟨"RSVD_OPD", 0x800000F1#32, 0x000000D1#32⟩,
    ⟨"RSVD_OPE", 0x800000F1#32, 0x000000E1#32⟩,
    ⟨"RSVD_OPF", 0x800000F1#32, 0x000000F1#32⟩ ]

/-- The mnemonic of an instruction, as the opcode table spells it. -/
def Instr.mnemonic : Instr → String
  | .enc _ => "ENC"
  | .mac _ => "MAC"
  | .trunc _ => "TRUNC"
  | .mod _ => "MOD"
  | .fmt _ => "FMT"
  | .tstep _ => "TSTEP"
  | .hotp _ => "HOTP"
  | .totp _ => "TOTP"
  | .srst _ => "SRST"
  | .cfg _ _ => "CFG"
  | .rsvdOp0 _ => "RSVD_OP0"
  | .rsvdOp7 _ => "RSVD_OP7"
  | .rsvdOpA _ => "RSVD_OPA"
  | .rsvdOpB _ => "RSVD_OPB"
  | .rsvdOpC _ => "RSVD_OPC"
  | .rsvdOpD _ => "RSVD_OPD"
  | .rsvdOpE _ => "RSVD_OPE"
  | .rsvdOpF _ => "RSVD_OPF"

/-- The instruction whose bits are `w`, numbered as the opcode table numbers them. An instruction is one 32-bit bus word
(30 R80); the bits above `nbits` are 0. -/
def decodeTableWord (nbits w : Nat) : Option Instr :=
  if nbits ≤ 32 then some (decode (BitVec.ofNat 32 (w % 2 ^ nbits))) else none

/-- The register map (10 R22). -/
def regMap : List (Nat × Reg) :=
  [ (0x000, .id), (0x004, .ctrl), (0x008, .status), (0x00C, .hwcfg), (0x010, .keyLen),
    (0x018, .counterHi), (0x01C, .counterLo), (0x020, .timeHi), (0x024, .timeLo),
    (0x028, .msgHi), (0x02C, .msgLo),
    (0x030, .digest 0), (0x034, .digest 1), (0x038, .digest 2), (0x03C, .digest 3), (0x040, .digest 4),
    (0x044, .offset), (0x048, .trunc), (0x04C, .code), (0x050, .ascii0), (0x054, .ascii1) ]

/-- The offset of a register (10 R22). -/
def Reg.offsetOf : Reg → Nat
  | .id => 0x000
  | .ctrl => 0x004
  | .status => 0x008
  | .hwcfg => 0x00C
  | .keyLen => 0x010
  | .counterHi => 0x018
  | .counterLo => 0x01C
  | .timeHi => 0x020
  | .timeLo => 0x024
  | .msgHi => 0x028
  | .msgLo => 0x02C
  | .digest i => 0x030 + 4 * i.val
  | .offset => 0x044
  | .trunc => 0x048
  | .code => 0x04C
  | .ascii0 => 0x050
  | .ascii1 => 0x054

/-- What an aligned offset holds: a register of the map, a word of the key RAM, or nothing (10 R22, R38, R39). -/
def targetAt (c : Config) (off : Nat) : Option Target :=
  match regMap.lookup off with
  | some r => some (.reg r)
  | none =>
    if keyWindow ≤ off ∧ off < keyWindow + c.keyRamBytes then some (.keyWord ((off - keyWindow) / 4)) else none

/-- Why a transaction is not mapped (20 R61). -/
inductive BusReject where
  /-- `off mod 4 ≠ 0` (20 R62). -/
  | misaligned
  /-- Fewer than four byte lanes (20 R63). -/
  | partialLanes
  /-- An aligned full-width offset that holds no register (20 R64). -/
  | unmapped
deriving DecidableEq, Repr

/-- The address decode of a transaction at offset `off` (20 R61): total, rejecting by name. -/
def busDecode (c : Config) (off : Nat) (lanes : BitVec 4) : Except BusReject Target :=
  if off % 4 ≠ 0 then .error .misaligned
  else if lanes ≠ 0xF#4 then .error .partialLanes
  else match targetAt c off with
    | some t => .ok t
    | none => .error .unmapped

/-- The platform's decode: the offset of an address inside `BASE` to `BASE` + 0x1FFFF, none for an address that is not
the engine's (20 R61; log 5). -/
def windowOffset (c : Config) (addr : Nat) : Option Nat :=
  if c.base ≤ addr ∧ addr < c.base + windowBytes then some (addr - c.base) else none

end Sys2Proof
end

