-- ==== Sys2Proof/Machine/State.lean ====
section
/-! DEFINITION. The state of the engine (10 R20), as plain data, the model's own fields beside it, the reasons a step can
stop, and the state after reset (70 R210). -/

namespace Sys2Proof.Machine

/-- The key RAM's contents (10 R39): the bytes that differ from the reset content, by byte index, indices strictly
rising. -/
abbrev Memory := List Host.Cell

/-- What a byte nothing has written reads as: the reset content (70 R210, R211). -/
def Memory.unlisted : Byte := 0x00#8

/-- The canonical form: indices strictly rising, and no entry equal to what an unlisted index reads as. -/
abbrev Memory.wf (m : Memory) : Prop :=
  m.Pairwise (fun c d => c.1 < d.1) ∧ ∀ c ∈ m, c.2 ≠ Memory.unlisted

/-- What a bus transaction answers (20 R60). -/
inductive BusReply where
  /-- `Ok(v)` of a read. -/
  | okRead (v : Word)
  /-- `Ok` of a write. -/
  | okWrite
  /-- `BusError` (20 R62 to R64). -/
  | busError
deriving DecidableEq, Repr

/-- The engine's state: the elements of 10 R20 under the spec's names, then the model's own fields. -/
@[ext]
structure State where
  /-- `s.key`: the key RAM (10 R39). -/
  key : Memory
  /-- `s.key_len` (10 R29). -/
  keyLen : BitVec 32
  /-- `s.counter` (10 R30). -/
  counter : BitVec 64
  /-- `s.time` (10 R31). -/
  time : BitVec 64
  /-- `s.msg` (10 R32). -/
  msg : Vector Byte 8
  /-- `s.digest` (10 R33). -/
  digest : Vector Byte 20
  /-- `s.offset` (10 R34). -/
  offset : BitVec 4
  /-- `s.trunc` (10 R35). -/
  trunc : BitVec 31
  /-- `s.code` (10 R36). -/
  code : BitVec 20
  /-- `s.ascii` (10 R37). -/
  ascii : Vector Byte 6
  /-- `s.op`, CTRL.OP (10 R26). -/
  op : BitVec 4
  /-- `s.irq_en`, CTRL.IRQ_EN (10 R26). -/
  irqEn : Bool
  /-- `s.busy`, STATUS.BUSY (10 R27). -/
  busy : Bool
  /-- `s.pending`, hidden (10 R40). -/
  pending : BitVec 4
  /-- `s.done`, STATUS.DONE (10 R27). -/
  done : Bool
  /-- `s.err`, STATUS.ERR (10 R27). -/
  err : Bool
  /-- `s.errcode`, STATUS.ERRCODE (10 R27, 60 R181). -/
  errcode : BitVec 4
  /-- `s.ovr`, STATUS.OVR (10 R27). -/
  ovr : Bool
  /-- The model's own: the part's parameters (00_scope R8), never written (log 1). -/
  cfg : Config
  /-- The model's own: what arrives, in the total order of 20 R72 (log 2). -/
  inputs : List Input
  /-- The model's own: the answer of the last bus transaction (20 R60; log 7). -/
  reply : Option BusReply
  /-- The model's own: the reset input is asserted (70 R210; log 8). -/
  inReset : Bool
deriving DecidableEq, Repr

/-- Why the machine stops with a fault. -/
inductive Fault where
  /-- An error completion with a code other than 1, 2 and 3 (93 A18: "never produced; a model that sees one has a bug
  (`fault`)"). Raised by `raiseCmdError` alone, and by no step: every command raises 1, 2 or 3 only. Safe (log 16). -/
  | reservedErrorCode (code : BitVec 4)
deriving DecidableEq, Repr

/-- Why the model gives no meaning. -/
inductive Refusal where
  /-- An instruction not modelled yet. Raised by no arm: every instruction has its meaning. Safe. -/
  | notModelled (mnemonic : String)
  /-- `LDCTR c` with c ≥ 2^64 (41 R131, 93 A1: "a host model must reject such a counter rather than truncate it").
  Raised by `expandStmt` alone, never by a step. Safe (log 14). -/
  | counterTooWide
  /-- `LDTIME t` with t ≥ 2^64: TIME is an unsigned 64-bit value (10 R31). Raised by `expandStmt` alone, never by a
  step. Safe (log 14). -/
  | timeTooWide
  /-- `WR` or `RD` at an offset of 2^17 or more, which is no offset (20 R60). Raised by `expandStmt` alone, never by a
  step. Safe (log 14). -/
  | offsetOutsideWindow
  /-- `LDKEY` of a key with bytes that no offset of the window carries (10 R45, 00_scope R9). Raised by `expandStmt`
  alone, never by a step. Safe (log 14). -/
  | keyTooLong
deriving DecidableEq, Repr

/-- What a meaning answers. -/
abbrev Result := Host.Outcome State Fault Refusal

/-- The part `c` right after reset (70 R210), nothing arriving. -/
def State.resetOf (c : Config) : State :=
  { key := [], keyLen := 0, counter := 0, time := 0
    msg := Vector.replicate 8 0, digest := Vector.replicate 20 0
    offset := 0, trunc := 0, code := 0, ascii := Vector.replicate 6 0
    op := 0, irqEn := false, busy := false, pending := 0
    done := false, err := false, errcode := 0, ovr := false
    cfg := c, inputs := [], reply := none, inReset := false }

/-- The machine right after reset (70 R210), for the parameters of 00_scope R8's defaults (log 1). -/
def State.reset : State := State.resetOf Config.standard

end Sys2Proof.Machine
end

