-- ==== Sys2Proof/Machine/Ops.lean ====
section
/-! DEFINITION. The named operations: the key RAM (10 R39, 20 R77), byte strings and byte order (00_scope R12,
20 R65), and the shared operations on the state that every command goes through: acceptance (60 R184), the dropped
write (60 R190), completion (60 R187), the error completion, which is this engine's way of taking an exception
(60 R186), and reset (70 R210, R213). -/

namespace Sys2Proof.Machine

/-! ## The key RAM -/

/-- The byte at an index. -/
def Memory.read : Memory → Nat → Byte
  | [], _ => Memory.unlisted
  | (a', b) :: rest, a => if a = a' then b else Memory.read rest a

/-- Store a byte, keeping the canonical form. -/
def Memory.write : Memory → Nat → Byte → Memory
  | [], a, b => if b = Memory.unlisted then [] else [(a, b)]
  | (a', b') :: rest, a, b =>
    if a < a' then (if b = Memory.unlisted then (a', b') :: rest else (a, b) :: (a', b') :: rest)
    else if a = a' then (if b = Memory.unlisted then rest else (a, b) :: rest)
    else (a', b') :: Memory.write rest a b

/-! ## Byte strings -/

/-- `bytes_be(v, n)`: the n bytes of v, most significant first (00_scope R12). -/
def bytesBe : Nat → Nat → List Byte
  | _, 0 => []
  | v, n + 1 => bytesBe (v / 256) n ++ [BitVec.ofNat 8 v]

@[simp] theorem bytesBe_length (v n : Nat) : (bytesBe v n).length = n := by
  induction n generalizing v with
  | zero => rfl
  | succ n ih => simp [bytesBe, ih]

/-- `be(B)`: the value of a byte string read most significant byte first (00_scope R12). -/
def be (bytes : List Byte) : Nat := bytes.foldl (fun acc b => acc * 256 + b.toNat) 0

/-- Bytewise exclusive or of equal-length strings (00_scope R12). -/
def xorBytes (b c : List Byte) : List Byte := List.zipWith (· ^^^ ·) b c

/-- The word that holds bytes `4k` to `4k+3` of a string: the first in bits 31:24 (20 R65). -/
def wordOfBytes {n : Nat} (bytes : Vector Byte n) (k : Nat) (h : 4 * k + 3 < n) : Word :=
  bytes[4 * k] ++ bytes[4 * k + 1] ++ bytes[4 * k + 2] ++ bytes[4 * k + 3]

/-- Byte `i` of a word in lane order: byte 0 is bits 31:24 (20 R65). -/
def wordByte (v : Word) (i : Nat) : Byte := v.extractLsb' (24 - 8 * i) 8

/-- Bytes `4k` to `4k+3` replaced by `bytes_be(v, 4)` (10 R32, R33). -/
def setWordOfBytes {n : Nat} (bytes : Vector Byte n) (k : Nat) (h : 4 * k + 3 < n) (v : Word) : Vector Byte n :=
  (((bytes.set (4 * k) (wordByte v 0)).set (4 * k + 1) (wordByte v 1)).set (4 * k + 2) (wordByte v 2)).set (4 * k + 3)
    (wordByte v 3)

/-- A host write of KEY[j]: key bytes 4j to 4j+3, byte 4j in bits 31:24 (10 R39). -/
def Memory.writeWord (m : Memory) (j : Nat) (v : Word) : Memory :=
  (((m.write (4 * j) (wordByte v 0)).write (4 * j + 1) (wordByte v 1)).write (4 * j + 2) (wordByte v 2)).write
    (4 * j + 3) (wordByte v 3)

/-- The high half of a 64-bit number (10 R30, R31). -/
def hi32 (x : BitVec 64) : Word := x.extractLsb' 32 32

/-- The low half of a 64-bit number. -/
def lo32 (x : BitVec 64) : Word := x.extractLsb' 0 32

/-- Bits 63:32 replaced, bits 31:0 left (10 R30). -/
def setHi32 (x : BitVec 64) (v : Word) : BitVec 64 := v ++ lo32 x

/-- Bits 31:0 replaced, bits 63:32 left (10 R30). -/
def setLo32 (x : BitVec 64) (v : Word) : BitVec 64 := hi32 x ++ v

/-- `KeyRead(i)` = `s.key[i]` (20 R77). -/
def keyRead (s : State) (i : Nat) : Byte := s.key.read i

/-! ## The steps every command goes through -/

/-- Acceptance of a command (60 R184): OP and IRQ_EN stored, BUSY set, DONE, ERR and ERRCODE cleared, OVR unchanged. -/
def accept (op : BitVec 4) (irqEn : Bool) (s : State) : State :=
  { s with op := op, irqEn := irqEn, pending := op, busy := true, done := false, err := false, errcode := 0 }

/-- A host write dropped because the engine is busy: it changes nothing but OVR (60 R190). -/
def dropWrite (s : State) : State := { s with ovr := true }

/-- A configuration write while idle (30 R87, 10 R26). -/
def configure (irqEn : Bool) (op : BitVec 4) (s : State) : State := { s with op := op, irqEn := irqEn }

/-- Steps 2 and 3 of the decoding order for a command (30 R81): dropped while busy, else accepted. -/
def issue (op : BitVec 4) (irqEn : Bool) (s : State) : State :=
  if s.busy then dropWrite s else accept op irqEn s

/-- STATUS after a successful completion (60 R187). -/
def succeed (s : State) : State := { s with busy := false, done := true, err := false, errcode := 0 }

/-- `complete(0)`: a successful completion, after the arm's data writes (60 R187). -/
def complete (s : State) : Result := .next (succeed s)

/-- What UNAVAILABLE and KEY_IMPORT clear: the registers that carry a code (60 R186). -/
def clearOutputs (s : State) : State :=
  { s with
    digest := Vector.replicate 20 0, offset := 0, trunc := 0, code := 0, ascii := Vector.replicate 6 0 }

/-- STATUS after a completion with an error code other than 0 (60 R186). -/
def failWith (errorCode : BitVec 4) (s : State) : State :=
  { s with busy := false, done := true, err := true, errcode := errorCode }

/-- The error codes of 60 R181. -/
def badOp : BitVec 4 := 1

/-- UNAVAILABLE, D0's `CryptoUnavailable` (60 R181). -/
def unavailable : BitVec 4 := 2

/-- KEY_IMPORT, D0's `KeyImportFailed` (60 R181). -/
def keyImport : BitVec 4 := 3

/-- `raise CmdError(code)`, code ∈ {1, 2, 3}: the error completion (60 R186). The engine takes no trap: this is its one
way of reporting an error (60 R180). Any other code is the fault of 93 A18 (log 16). -/
def raiseCmdError (errorCode : BitVec 4) (s : State) : Result :=
  if errorCode = badOp then .next (failWith badOp s)
  else if errorCode = unavailable ∨ errorCode = keyImport then .next (failWith errorCode (clearOutputs s))
  else .fault (.reservedErrorCode errorCode)

/-- The acknowledgement, this engine's return from an error or completion (60 R191; 10 R27): the write-one-to-clear bits
of a STATUS write while idle. -/
def acknowledge (v : Word) (s : State) : State :=
  { s with
    done := s.done && !v.getLsbD 1
    err := s.err && !v.getLsbD 2
    errcode := if v.getLsbD 2 then 0 else s.errcode
    ovr := s.ovr && !v.getLsbD 8 }

/-- The OVR clause of a STATUS write, the only one that applies while busy (10 R27, 60 R190). -/
def clearOvr (v : Word) (s : State) : State := { s with ovr := s.ovr && !v.getLsbD 8 }

/-- Every state element of 10 R20 to its reset value (70 R210, R213). The model's own fields are no such element and stay
(log 9). -/
def resetState (s : State) : State :=
  { State.resetOf s.cfg with inputs := s.inputs, reply := s.reply, inReset := s.inReset }

end Sys2Proof.Machine
end

