-- ==== Sys2Proof/Machine/Flags.lean ====
section
/-! DEFINITION. The flags and the words made of them: STATUS (10 R27), CTRL (10 R26), HWCFG (10 R28), the `irq` output
(10 R41), and the key check (60 R182). The engine has no arithmetic flags (41 R141). -/

namespace Sys2Proof.Machine

/-- A flag as a word: `zext_32` of one bit. -/
def flagWord (b : Bool) : Word := if b then 1#32 else 0#32

/-- A read of STATUS (10 R27). -/
def statusWord (s : State) : Word :=
  (flagWord s.ovr <<< 8) ||| (s.errcode.setWidth 32 <<< 4) ||| (flagWord s.err <<< 2) ||| (flagWord s.done <<< 1) |||
    flagWord s.busy

/-- A read of CTRL: START and SRST read 0 (10 R26). -/
def ctrlWord (s : State) : Word := (flagWord s.irqEn <<< 8) ||| (s.op.setWidth 32 <<< 4)

/-- A read of HWCFG (10 R28). -/
def hwcfgWord (c : Config) : Word :=
  (BitVec.ofNat 16 (c.keyRamBytes / 4)).setWidth 32 ||| (flagWord c.cryptoAvailable <<< 16) |||
    (flagWord c.rejectEmptyKey <<< 17)

/-- The output `irq` = DONE ∧ IRQ_EN, at every moment (10 R41, 60 R193). -/
def State.irq (s : State) : Bool := s.done && s.irqEn

/-- The key check of MAC, HOTP and TOTP (60 R182), with the priority of 60 R183. -/
def cryptoCheck (s : State) : BitVec 4 :=
  if !s.cfg.cryptoAvailable then unavailable
  else if s.cfg.keyRamBytes < s.keyLen.toNat then keyImport
  else if s.keyLen = 0 ∧ s.cfg.rejectEmptyKey = true then keyImport
  else 0

end Sys2Proof.Machine
end

