-- ==== Sys2Proof/Machine/Operands.lean ====
section
/-! DEFINITION. The operands. A command's operands are implicit (30 R83): the key bytes (40 R100) and the state elements
its rule names. The host's operands are the registers: what each reads as and what a write to each stores while idle
(10 R25 to R39). -/

namespace Sys2Proof.Machine

/-- The key K = `KeyRead(0) || … || KeyRead(s.key_len − 1)` (40 R100). -/
def keyBytes (s : State) : List Byte := (List.range s.keyLen.toNat).map (keyRead s)

/-- What a register reads as (10 R25 to R37). -/
def readReg (s : State) : Reg → Word
  | .id => idValue
  | .ctrl => ctrlWord s
  | .status => statusWord s
  | .hwcfg => hwcfgWord s.cfg
  | .keyLen => s.keyLen
  | .counterHi => hi32 s.counter
  | .counterLo => lo32 s.counter
  | .timeHi => hi32 s.time
  | .timeLo => lo32 s.time
  | .msgHi => wordOfBytes s.msg 0 (by decide)
  | .msgLo => wordOfBytes s.msg 1 (by decide)
  | .digest i => wordOfBytes s.digest i.val (by omega)
  | .offset => s.offset.setWidth 32
  | .trunc => s.trunc.setWidth 32
  | .code => s.code.setWidth 32
  | .ascii0 => wordOfBytes s.ascii 0 (by decide)
  | .ascii1 => s.ascii[4] ++ s.ascii[5] ++ 0#16

/-- What a mapped offset reads as: the key is never readable (10 R39). -/
def readTarget (s : State) : Target → Word
  | .reg r => readReg s r
  | .keyWord _ => 0

/-- What a write to a register other than CTRL stores while idle: read-only registers and reserved bits ignore it
(10 R27, R29 to R37, R43). (CTRL's write is an instruction, `exec`; the arm here stores nothing.) -/
def writeReg (s : State) (v : Word) : Reg → State
  | .id => s
  | .ctrl => s
  | .status => acknowledge v s
  | .hwcfg => s
  | .keyLen => { s with keyLen := v }
  | .counterHi => { s with counter := setHi32 s.counter v }
  | .counterLo => { s with counter := setLo32 s.counter v }
  | .timeHi => { s with time := setHi32 s.time v }
  | .timeLo => { s with time := setLo32 s.time v }
  | .msgHi => { s with msg := setWordOfBytes s.msg 0 (by decide) v }
  | .msgLo => { s with msg := setWordOfBytes s.msg 1 (by decide) v }
  | .digest i => { s with digest := setWordOfBytes s.digest i.val (by omega) v }
  | .offset => s
  | .trunc => { s with trunc := v.setWidth 31 }
  | .code => { s with code := v.setWidth 20 }
  | .ascii0 => s
  | .ascii1 => s

/-- What a write to a mapped offset stores while idle (10 R39 for the key RAM). -/
def writeTarget (s : State) (v : Word) : Target → State
  | .reg r => writeReg s v r
  | .keyWord j => { s with key := s.key.writeWord j v }

end Sys2Proof.Machine
end

