-- ==== Sys2Proof/Machine/Codec.lean ====
section
/-! DEFINITION. The codec (41): the counter encoder, the dynamic-truncation selector, the modulo-reduction pipeline and
the time-step divider, each a pure function, a stage on the state, and a command. -/

namespace Sys2Proof.Machine

/-! ## ENC -/

/-- `encodeCounter(c)`: the low 8 bits taken and shifted out, filling from the last byte to the first (41 R130). -/
def encodeCounter (c : BitVec 64) : Vector Byte 8 := ⟨(bytesBe c.toNat 8).toArray, by simp⟩

/-- The ENC stage (41 R131). -/
def encStage (s : State) : State := { s with msg := encodeCounter s.counter }

/-- ENC at the completion step (41 R131). -/
def completeEnc (s : State) : Result := complete (encStage s)

/-- ENC in the host's write: accepted while idle, dropped while busy (41 R131, 60 R184, R190). -/
def execEnc (irqEn : Bool) (s : State) : Result := .next (issue 0x1#4 irqEn s)

/-! ## TRUNC -/

/-- The low nibble of the last byte selects the window (41 R132, step 1). -/
def truncOffset (d : Vector Byte 20) : BitVec 4 := (d[19] &&& 0x0F#8).setWidth 4

/-- The window's four bytes combined big-endian, the top bit cleared (41 R132, steps 2 and 3). -/
def truncWord (d : Vector Byte 20) : Word :=
  let o := (truncOffset d).toNat
  have _ : o < 16 := (truncOffset d).isLt
  ((d[o] &&& 0x7F#8).setWidth 32 <<< 24) ||| (d[o + 1].setWidth 32 <<< 16) ||| (d[o + 2].setWidth 32 <<< 8) |||
    d[o + 3].setWidth 32

/-- The 31-bit result (41 R132, step 4; bit 31 of `truncWord` is 0, 41 R133). -/
def truncResult (d : Vector Byte 20) : BitVec 31 := (truncWord d).setWidth 31

/-- The TRUNC stage (41 R134). -/
def truncStage (s : State) : State := { s with offset := truncOffset s.digest, trunc := truncResult s.digest }

/-- TRUNC at the completion step (41 R134). -/
def completeTrunc (s : State) : Result := complete (truncStage s)

/-- TRUNC in the host's write: accepted while idle, dropped while busy (41 R134, 60 R184, R190). -/
def execTrunc (irqEn : Bool) (s : State) : Result := .next (issue 0x3#4 irqEn s)

/-! ## MOD -/

/-- `reduce(t)` = t mod 10^6 (41 R135). -/
def reduce (t : BitVec 31) : BitVec 20 := BitVec.ofNat 20 (t.toNat % modulus)

/-- The MOD stage (41 R136). -/
def modStage (s : State) : State := { s with code := reduce s.trunc }

/-- MOD at the completion step (41 R136). -/
def completeMod (s : State) : Result := complete (modStage s)

/-- MOD in the host's write: accepted while idle, dropped while busy (41 R136, 60 R184, R190). -/
def execMod (irqEn : Bool) (s : State) : Result := .next (issue 0x4#4 irqEn s)

/-! ## FMT -/

/-- The last `n` decimal digits of v as ASCII, most significant first (41 R137's loop). -/
def asciiDigits : Nat → Nat → List Byte
  | _, 0 => []
  | v, n + 1 => asciiDigits (v / 10) n ++ [0x30#8 + BitVec.ofNat 8 (v % 10)]

@[simp] theorem asciiDigits_length (v n : Nat) : (asciiDigits v n).length = n := by
  induction n generalizing v with
  | zero => rfl
  | succ n ih => simp [asciiDigits, ih]

/-- `render(c)`: c mod 10^6 as six decimal characters (41 R137). -/
def render (c : BitVec 20) : Vector Byte 6 := ⟨(asciiDigits (c.toNat % modulus) digits).toArray, by simp [digits]⟩

/-- The FMT stage (41 R138). -/
def fmtStage (s : State) : State := { s with ascii := render s.code }

/-- FMT at the completion step (41 R138). -/
def completeFmt (s : State) : Result := complete (fmtStage s)

/-- FMT in the host's write: accepted while idle, dropped while busy (41 R138, 60 R184, R190). -/
def execFmt (irqEn : Bool) (s : State) : Result := .next (issue 0x5#4 irqEn s)

/-! ## TSTEP -/

/-- `timeStep(t)` = floor(t / 30) (41 R139). -/
def timeStep (t : BitVec 64) : BitVec 64 := BitVec.ofNat 64 (t.toNat / timeStepSeconds)

/-- The TSTEP stage (41 R140). -/
def tstepStage (s : State) : State := { s with counter := timeStep s.time }

/-- TSTEP at the completion step (41 R140). -/
def completeTstep (s : State) : Result := complete (tstepStage s)

/-- TSTEP in the host's write: accepted while idle, dropped while busy (41 R140, 60 R184, R190). -/
def execTstep (irqEn : Bool) (s : State) : Result := .next (issue 0x6#4 irqEn s)

end Sys2Proof.Machine
end

