-- ==== Sys2Proof/Machine/Hmac.lean ====
section
/-! DEFINITION. The HMAC-SHA-1 unit (40 R100 to R111) and the MAC command (40 R112). -/

namespace Sys2Proof.Machine

/-! ## SHA-1 -/

/-- `ROTL_n(x)`, 0 < n < 32 (40 R111). -/
def rotl (n : Nat) (x : Word) : Word := (x <<< n) ||| (x >>> (32 - n))

/-- The number of zero bytes of the padding: the least k with (L + 1 + k + 8) mod 64 = 0 (40 R104). -/
def padZeros (len : Nat) : Nat := (119 - len % 64) % 64

/-- `Pad(M)` (40 R104). -/
def shaPad (m : List Byte) : List Byte :=
  m ++ 0x80#8 :: (List.replicate (padZeros m.length) 0x00#8 ++ bytesBe (8 * m.length) 8)

/-- The first `n` 32-bit words of a byte string, each read most significant byte first (40 R105). -/
def bytesToWords : Nat → List Byte → List Word
  | 0, _ => []
  | n + 1, bytes => BitVec.ofNat 32 (be (bytes.take 4)) :: bytesToWords n (bytes.drop 4)

/-- `n` more words of the message schedule, newest first: W_t from W_{t−3}, W_{t−8}, W_{t−14}, W_{t−16} (40 R108). -/
def extendSchedule : Nat → List Word → List Word
  | 0, ws => ws
  | n + 1, ws =>
    extendSchedule n (rotl 1 (ws.getD 2 0 ^^^ ws.getD 7 0 ^^^ ws.getD 13 0 ^^^ ws.getD 15 0) :: ws)

/-- The 80 words W_0 to W_79 of a block (40 R105, R108). -/
def messageSchedule (block : List Byte) : List Word := (extendSchedule 64 (bytesToWords 16 block).reverse).reverse

/-- `f_t` (40 R107). -/
def roundFunction (t : Nat) (b c d : Word) : Word :=
  if t < 20 then (b &&& c) ||| (~~~b &&& d)
  else if t < 40 then b ^^^ c ^^^ d
  else if t < 60 then (b &&& c) ||| (b &&& d) ||| (c &&& d)
  else b ^^^ c ^^^ d

/-- `K_t` (40 R107). -/
def roundConstant (t : Nat) : Word :=
  if t < 20 then 0x5A827999#32
  else if t < 40 then 0x6ED9EBA1#32
  else if t < 60 then 0x8F1BBCDC#32
  else 0xCA62C1D6#32

/-- Five words: H0 to H4, or the working variables a to e (40 R106, R109). -/
structure HashWords where
  a : Word
  b : Word
  c : Word
  d : Word
  e : Word
deriving DecidableEq, Repr

/-- The initial hash value (40 R106). -/
def initialHash : HashWords :=
  { a := 0x67452301#32, b := 0xEFCDAB89#32, c := 0x98BADCFE#32, d := 0x10325476#32, e := 0xC3D2E1F0#32 }

/-- Round t with schedule word `w`; the assignments are simultaneous (40 R109). -/
def shaRound (t : Nat) (w : Word) (h : HashWords) : HashWords :=
  { a := rotl 5 h.a + roundFunction t h.b h.c h.d + h.e + roundConstant t + w
    b := h.a, c := rotl 30 h.b, d := h.c, e := h.d }

/-- The rounds from t on, one for each word (40 R109). -/
def shaRounds : Nat → List Word → HashWords → HashWords
  | _, [], h => h
  | t, w :: ws, h => shaRounds (t + 1) ws (shaRound t w h)

/-- The compression of one block (40 R109). -/
def compress (h : HashWords) (block : List Byte) : HashWords :=
  let r := shaRounds 0 (messageSchedule block) h
  { a := h.a + r.a, b := h.b + r.b, c := h.c + r.c, d := h.d + r.d, e := h.e + r.e }

/-- The compression of `n` blocks in order (40 R105, R109). -/
def hashBlocks : Nat → List Byte → HashWords → HashWords
  | 0, _, h => h
  | n + 1, bytes, h => hashBlocks n (bytes.drop blockBytes) (compress h (bytes.take blockBytes))

/-- The bytes of H0 to H4, each most significant first (40 R110). -/
def hashBytes (h : HashWords) : List Byte :=
  bytesBe h.a.toNat 4 ++ bytesBe h.b.toNat 4 ++ bytesBe h.c.toNat 4 ++ bytesBe h.d.toNat 4 ++ bytesBe h.e.toNat 4

@[simp] theorem hashBytes_length (h : HashWords) : (hashBytes h).length = 20 := by
  simp [hashBytes]

/-- `SHA1(M)` (40 R110). -/
def sha1 (m : List Byte) : Vector Byte 20 :=
  ⟨(hashBytes (hashBlocks ((shaPad m).length / blockBytes) (shaPad m) initialHash)).toArray, by simp⟩

/-! ## HMAC -/

/-- `IPAD` (40 R103). -/
def ipad : List Byte := List.replicate blockBytes 0x36#8

/-- `OPAD` (40 R103). -/
def opad : List Byte := List.replicate blockBytes 0x5C#8

/-- The key block K0 (40 R102). -/
def keyBlock (k : List Byte) : List Byte :=
  if k.length ≤ blockBytes then k ++ List.replicate (blockBytes - k.length) 0x00#8
  else (sha1 k).toList ++ List.replicate 44 0x00#8

/-- `HMAC_SHA1(K, m)` (40 R101). -/
def hmacSha1 (k m : List Byte) : Vector Byte 20 :=
  sha1 (xorBytes (keyBlock k) opad ++ (sha1 (xorBytes (keyBlock k) ipad ++ m)).toList)

/-! ## MAC -/

/-- The MAC stage: `s.digest <- HMAC_SHA1(K, s.msg)` (40 R112). -/
def macStage (s : State) : State := { s with digest := hmacSha1 (keyBytes s) s.msg.toList }

/-- A command that uses the key: the check first, then its stages, then `complete(0)` (40 R112, 42 R161, R163). -/
def withKeyCheck (stages : State → State) (s : State) : Result :=
  if cryptoCheck s ≠ 0 then raiseCmdError (cryptoCheck s) s else complete (stages s)

/-- MAC at the completion step (40 R112). -/
def completeMac (s : State) : Result := withKeyCheck macStage s

/-- MAC in the host's write: accepted while idle, dropped while busy (40 R112, 60 R184, R190). -/
def execMac (irqEn : Bool) (s : State) : Result := .next (issue 0x2#4 irqEn s)

end Sys2Proof.Machine
end

