-- ==== Sys2Proof/Machine/Otp.lean ====
section
/-! DEFINITION. The composite commands HOTP (42 R161) and TOTP (42 R163): the stages in the spec's order, each reading
what the one before it wrote, inside one completion step. -/

namespace Sys2Proof.Machine

/-- HOTP's five stages (42 R161). -/
def hotpStages (s : State) : State := fmtStage (modStage (truncStage (macStage (encStage s))))

/-- HOTP at the completion step (42 R161). -/
def completeHotp (s : State) : Result := withKeyCheck hotpStages s

/-- HOTP in the host's write: accepted while idle, dropped while busy (42 R161, 60 R184, R190). -/
def execHotp (irqEn : Bool) (s : State) : Result := .next (issue 0x8#4 irqEn s)

/-- TOTP's stages: the time step, then HOTP's, reading the new counter (42 R163). -/
def totpStages (s : State) : State := hotpStages (tstepStage s)

/-- TOTP at the completion step (42 R163). -/
def completeTotp (s : State) : Result := withKeyCheck totpStages s

/-- TOTP in the host's write: accepted while idle, dropped while busy (42 R163, 60 R184, R190). -/
def execTotp (irqEn : Bool) (s : State) : Result := .next (issue 0x9#4 irqEn s)

end Sys2Proof.Machine
end

