-- ==== Sys2Proof/Machine/System.lean ====
section
/-! DEFINITION. The remaining rows of the opcode table: soft reset (30 R82, 70 R213), the configuration write (30 R87)
and the eight reserved OP codes (30 R85), which are accepted like any command and complete with BAD_OP. -/

namespace Sys2Proof.Machine

/-- SRST: the soft reset, busy or idle, whatever the other bits (30 R82, 70 R213). An outstanding command is gone with
BUSY: it never completes. -/
def execSrst (_ignored : BitVec 31) (s : State) : Result := .next (resetState s)

/-- CFG: OP and IRQ_EN stored while idle (30 R87), dropped while busy (60 R190). -/
def execCfg (irqEn : Bool) (op : BitVec 4) (s : State) : Result :=
  .next (if s.busy then dropWrite s else configure irqEn op s)

/-- A reserved OP at the completion step: BAD_OP (30 R85, 60 R185). -/
def completeReserved (s : State) : Result := raiseCmdError badOp s

/-- The command with reserved OP 0x0 in the host's write: accepted while idle, dropped while busy (30 R85, 60 R190). -/
def execRsvdOp0 (irqEn : Bool) (s : State) : Result := .next (issue 0x0#4 irqEn s)

/-- The command with reserved OP 0x7 in the host's write: accepted while idle, dropped while busy (30 R85, 60 R190). -/
def execRsvdOp7 (irqEn : Bool) (s : State) : Result := .next (issue 0x7#4 irqEn s)

/-- The command with reserved OP 0xA in the host's write: accepted while idle, dropped while busy (30 R85, 60 R190). -/
def execRsvdOpA (irqEn : Bool) (s : State) : Result := .next (issue 0xA#4 irqEn s)

/-- The command with reserved OP 0xB in the host's write: accepted while idle, dropped while busy (30 R85, 60 R190). -/
def execRsvdOpB (irqEn : Bool) (s : State) : Result := .next (issue 0xB#4 irqEn s)

/-- The command with reserved OP 0xC in the host's write: accepted while idle, dropped while busy (30 R85, 60 R190). -/
def execRsvdOpC (irqEn : Bool) (s : State) : Result := .next (issue 0xC#4 irqEn s)

/-- The command with reserved OP 0xD in the host's write: accepted while idle, dropped while busy (30 R85, 60 R190). -/
def execRsvdOpD (irqEn : Bool) (s : State) : Result := .next (issue 0xD#4 irqEn s)

/-- The command with reserved OP 0xE in the host's write: accepted while idle, dropped while busy (30 R85, 60 R190). -/
def execRsvdOpE (irqEn : Bool) (s : State) : Result := .next (issue 0xE#4 irqEn s)

/-- The command with reserved OP 0xF in the host's write: accepted while idle, dropped while busy (30 R85, 60 R190). -/
def execRsvdOpF (irqEn : Bool) (s : State) : Result := .next (issue 0xF#4 irqEn s)

end Sys2Proof.Machine
end

