-- ==== Sys2Proof/Machine/Dispatch.lean ====
section
/-! DEFINITION. The instruction's meaning: exec, one arm per constructor of Instr. A command's meaning here is its host
step; the engine's step that completes it is engineStep (Machine/Engine.lean; log 10). -/

namespace Sys2Proof.Machine

def exec (i : Instr) (s : State) : Host.Outcome State Fault Refusal :=
  match i with
  | .enc irqEn => Sys2Proof.Machine.execEnc irqEn s
  | .mac irqEn => Sys2Proof.Machine.execMac irqEn s
  | .trunc irqEn => Sys2Proof.Machine.execTrunc irqEn s
  | .mod irqEn => Sys2Proof.Machine.execMod irqEn s
  | .fmt irqEn => Sys2Proof.Machine.execFmt irqEn s
  | .tstep irqEn => Sys2Proof.Machine.execTstep irqEn s
  | .hotp irqEn => Sys2Proof.Machine.execHotp irqEn s
  | .totp irqEn => Sys2Proof.Machine.execTotp irqEn s
  | .srst ignored => Sys2Proof.Machine.execSrst ignored s
  | .cfg irqEn op => Sys2Proof.Machine.execCfg irqEn op s
  | .rsvdOp0 irqEn => Sys2Proof.Machine.execRsvdOp0 irqEn s
  | .rsvdOp7 irqEn => Sys2Proof.Machine.execRsvdOp7 irqEn s
  | .rsvdOpA irqEn => Sys2Proof.Machine.execRsvdOpA irqEn s
  | .rsvdOpB irqEn => Sys2Proof.Machine.execRsvdOpB irqEn s
  | .rsvdOpC irqEn => Sys2Proof.Machine.execRsvdOpC irqEn s
  | .rsvdOpD irqEn => Sys2Proof.Machine.execRsvdOpD irqEn s
  | .rsvdOpE irqEn => Sys2Proof.Machine.execRsvdOpE irqEn s
  | .rsvdOpF irqEn => Sys2Proof.Machine.execRsvdOpF irqEn s

end Sys2Proof.Machine
end

