-- ==== Sys2Proof/Machine/Bus.lean ====
section
/-! DEFINITION. The host agent: one bus transaction as one atomic step (20 R60 to R64, R69, R70; 60 R190). -/

namespace Sys2Proof.Machine

/-- A mapped write (20 R61): CTRL's is an instruction; STATUS's clears by its own rule, busy or idle (10 R27); any other
is dropped while busy (60 R190) and stored while idle. -/
def busWrite (t : Target) (v : Word) (s : State) : Result :=
  match t with
  | .reg .ctrl => exec (decode v) s
  | .reg .status => .next (if s.busy then clearOvr v s else acknowledge v s)
  | t => .next (if s.busy then dropWrite s else writeTarget s v t)

/-- A transaction at an offset of the window: `BusError` with no state change unless it is mapped (20 R61 to R64); a read
changes no state (20 R69). -/
def busTransaction (off : Nat) (lanes : BitVec 4) (op : BusOp) (s : State) : Result :=
  match busDecode s.cfg off lanes, op with
  | .error _, _ => .next { s with reply := some .busError }
  | .ok t, .read => .next { s with reply := some (.okRead (readTarget s t)) }
  | .ok t, .write v => busWrite t v { s with reply := some .okWrite }

/-- A transaction of the platform's bus: while reset is asserted the engine accepts none (70 R210), and an address outside
the window is not the engine's (20 R61; log 5). Either way the engine gives no answer. -/
def busAccess (a : Access) (s : State) : Result :=
  if s.inReset then .next { s with reply := none }
  else match windowOffset s.cfg a.addr with
    | some off => busTransaction off a.lanes a.op s
    | none => .next { s with reply := none }

end Sys2Proof.Machine
end

