-- ==== Sys2Proof/Machine/Engine.lean ====
section
/-! DEFINITION. The engine agent: its one kind of step, the completion step (60 R185). -/

namespace Sys2Proof.Machine

/-- The completion of the outstanding command (60 R185). -/
def completePending (s : State) : Result :=
  match s.pending with
  | 0x1#4 => completeEnc s
  | 0x2#4 => completeMac s
  | 0x3#4 => completeTrunc s
  | 0x4#4 => completeMod s
  | 0x5#4 => completeFmt s
  | 0x6#4 => completeTstep s
  | 0x8#4 => completeHotp s
  | 0x9#4 => completeTotp s
  | _ => completeReserved s

/-- The engine's turn: enabled exactly when BUSY = 1 and reset is not asserted (60 R185, 70 R210); else it performs no
step (60 R201). -/
def engineStep (s : State) : Result :=
  if s.busy ∧ s.inReset = false then completePending s else .next s

end Sys2Proof.Machine
end

