-- ==== Sys2Proof/Machine/Turn.lean ====
section
/-! DEFINITION. One step of the whole: the next of the inputs, in the total order of 20 R72 (log 2). -/

namespace Sys2Proof.Machine

/-- The reset input asserted: the state takes its reset values (70 R210; DESIGN CHOICE that it does so at once, log 8:
unsafe, the spec says only what holds at release). -/
def assertReset (s : State) : State := { resetState s with reply := none, inReset := true }

/-- The reset input released: every state element holds its reset value (70 R210). Releasing an input that is not
asserted is no event. -/
def releaseReset (s : State) : State :=
  if s.inReset then { resetState s with inReset := false } else s

/-- One poll of WAITDONE: a read of STATUS (30 R89). -/
def pollStatus (s : State) : State := { s with reply := some (.okRead (statusWord s)) }

/-- WAITDONE (30 R89): the poll that reads DONE = 1 ends it. While the engine is busy the engine moves and the host goes on
polling, since the polls in between change no state (20 R69; log 12); while it is idle without DONE, or reset is asserted,
the loop goes round. -/
def waitDone (rest : List Input) (s : State) : Result :=
  if s.inReset then .next s
  else if s.done then .next { pollStatus s with inputs := rest }
  else if s.busy then engineStep s
  else .next (pollStatus s)

/-- WAITIRQ (30 R89): no bus transaction; it ends when `irq` = 1. -/
def waitIrq (rest : List Input) (s : State) : Result :=
  if s.irq then .next { s with inputs := rest } else engineStep s

/-- One step: the first input acts. When no input is left the engine moves if it can, since an enabled engine step is
eventually taken (60 R188; log 3), and otherwise nothing moves (60 R201, R203). -/
def turn (s : State) : Result :=
  match s.inputs with
  | [] => engineStep s
  | .bus a :: rest => busAccess a { s with inputs := rest }
  | .engine :: rest => engineStep { s with inputs := rest }
  | .resetAssert :: rest => .next (assertReset { s with inputs := rest })
  | .resetRelease :: rest => .next (releaseReset { s with inputs := rest })
  | .waitDone :: rest => waitDone rest s
  | .waitIrq :: rest => waitIrq rest s

end Sys2Proof.Machine
end

