-- ==== Sys2Proof/Machine/Step.lean ====
section
/-! DEFINITION. step, and the placing of an instruction where step takes its next one. -/

namespace Sys2Proof.Machine

/-- One step of the machine: the next input, in the total order of 20 R72. -/
def step (s : State) : Host.Outcome State Fault Refusal := turn s

/-- `s` with the instruction `w` as the next thing that arrives: a full-width host write of it to CTRL (30 R80), reset not
asserted. The engine fetches nothing (10 R24, 20 R75); log 15 says how a program comes to run. -/
def State.withFetchWord (s : State) (nbits w : Nat) : State :=
  { s with
    inReset := false
    inputs :=
      .bus { addr := s.cfg.base + Reg.ctrl.offsetOf, lanes := 0xF#4
             op := .write (BitVec.ofNat 32 (w % 2 ^ nbits)) } :: s.inputs }

end Sys2Proof.Machine
end

