-- ==== Sys2Proof/Machine/Program.lean ====
section
/-! DEFINITION. Host programs: the expansion of a statement (30 R88, R89) into what arrives at the engine. -/

namespace Sys2Proof.Machine

/-- A full-width bus transaction at an offset of the part's window. -/
def accessAt (c : Config) (off : Nat) (op : BusOp) : Input :=
  .bus { addr := c.base + off, lanes := 0xF#4, op := op }

/-- `WR off, v` (30 R88). -/
def writeAt (c : Config) (off : Nat) (v : Word) : Input := accessAt c off (.write v)

/-- `WR` of a register (30 R88). -/
def writeRegAt (c : Config) (r : Reg) (v : Word) : Input := writeAt c r.offsetOf v

/-- The writes of `LDKEY`'s words KEY[j], KEY[j+1], …: `n` words, the bytes padded with 0x00 (30 R89). -/
def keyWrites (c : Config) : Nat → Nat → List Byte → List Input
  | _, 0, _ => []
  | j, n + 1, bytes =>
    writeAt c (keyWindow + 4 * j)
        (bytes.getD 0 0 ++ bytes.getD 1 0 ++ bytes.getD 2 0 ++ bytes.getD 3 0) ::
      keyWrites c (j + 1) n (bytes.drop 4)

/-- The writes of `LDKEY`: the key's words, then its length (30 R89). -/
def loadKey (c : Config) (bytes : List Byte) : Host.Outcome (List Input) Fault Refusal :=
  if keyFitsWindow bytes then
    .next (keyWrites c 0 ((bytes.length + 3) / 4) bytes ++ [writeRegAt c .keyLen (BitVec.ofNat 32 bytes.length)])
  else .refused .keyTooLong

/-- The expansion of a statement (30 R88, R89), refused by name where no transaction can carry its operands
(41 R131, 93 A1; log 14). -/
def expandStmt (c : Config) : Stmt → Host.Outcome (List Input) Fault Refusal
  | .wr off v => if offsetFits off then .next [writeAt c off v] else .refused .offsetOutsideWindow
  | .rd off => if offsetFits off then .next [accessAt c off .read] else .refused .offsetOutsideWindow
  | .cmd op irq => .next [writeRegAt c .ctrl ((op.setWidth 32 <<< 4) ||| (if irq then 0x101#32 else 0x1#32))]
  | .srst => .next [writeRegAt c .ctrl 0x80000000#32]
  | .waitDone => .next [.waitDone]
  | .waitIrq => .next [.waitIrq]
  | .clrst => .next [writeRegAt c .status 0x00000106#32]
  | .ldkey bytes => loadKey c bytes
  | .ldkeyText text => loadKey c (utf8Bytes text)
  | .ldctr n =>
    if fits64 n then
      .next [writeRegAt c .counterHi (BitVec.ofNat 32 (n / 2 ^ 32)), writeRegAt c .counterLo (BitVec.ofNat 32 n)]
    else .refused .counterTooWide
  | .ldtime n =>
    if fits64 n then
      .next [writeRegAt c .timeHi (BitVec.ofNat 32 (n / 2 ^ 32)), writeRegAt c .timeLo (BitVec.ofNat 32 n)]
    else .refused .timeTooWide
  | .ldmsg bytes =>
    .next [writeRegAt c .msgHi (bytes[0] ++ bytes[1] ++ bytes[2] ++ bytes[3]),
      writeRegAt c .msgLo (bytes[4] ++ bytes[5] ++ bytes[6] ++ bytes[7])]
  | .lddig bytes =>
    .next ((List.finRange 5).map fun i =>
      writeRegAt c (.digest i)
        (bytes[4 * i.val] ++ bytes[4 * i.val + 1] ++ bytes[4 * i.val + 2] ++ bytes[4 * i.val + 3]))

/-- The expansion of a host program: its statements' expansions in order, refused where one is. -/
def expandProgram (c : Config) : List Stmt → Host.Outcome (List Input) Fault Refusal
  | [] => .next []
  | p :: ps =>
    match expandStmt c p, expandProgram c ps with
    | .next a, .next b => .next (a ++ b)
    | .fault f, _ => .fault f
    | .refused r, _ => .refused r
    | _, .fault f => .fault f
    | _, .refused r => .refused r

/-- `s` with a host program as what arrives next (log 15). -/
def loadProgram (program : List Stmt) (s : State) : Result :=
  match expandProgram s.cfg program with
  | .next arriving => .next { s with inputs := arriving ++ s.inputs }
  | .fault f => .fault f
  | .refused r => .refused r

end Sys2Proof.Machine
end

