-- ==== Sys2Proof/Safety.lean ====
section
/-! DEFINITION. The terms claims use: the invariants of the engine, the states the spec's acceptance and completion rules
give, and what the host may write. -/

namespace Sys2Proof.Machine

/-- The flag invariants of 10 R42 (TRUNC's and CODE's are in the types of those fields). -/
abbrev State.flagsOk (s : State) : Prop :=
  (s.busy = true → s.done = false ∧ s.err = false ∧ s.errcode = 0) ∧
  (s.err = false → s.errcode = 0) ∧
  (s.err = true → s.errcode = 1 ∨ s.errcode = 2 ∨ s.errcode = 3)

/-- While a command is outstanding, its code is CTRL.OP (10 R40). -/
abbrev State.pendingOk (s : State) : Prop := s.busy = true → s.pending = s.op

/-- The key RAM is in its canonical form and holds bytes of the part's key RAM only (10 R39). -/
abbrev State.keyOk (s : State) : Prop := s.key.wf ∧ ∀ c ∈ s.key, c.1 < s.cfg.keyRamBytes

/-- What every step keeps: a legal part (00_scope R8), the flags (10 R42), the pending code (10 R40), the key RAM
(10 R39). -/
abbrev State.inv (s : State) : Prop := s.cfg.legal ∧ s.flagsOk ∧ s.pendingOk ∧ s.keyOk

/-- The state 60 R184 gives after the acceptance of the command `op`. -/
def State.acceptedWith (s : State) (op : BitVec 4) (irqEn : Bool) : State :=
  { s with op := op, irqEn := irqEn, pending := op, busy := true, done := false, err := false, errcode := 0 }

/-- STATUS as 60 R187 leaves it after a success. -/
def State.completedOk (s : State) : State := { s with busy := false, done := true, err := false, errcode := 0 }

/-- STATUS as 60 R186 leaves it after an error. -/
def State.completedErr (s : State) (errorCode : BitVec 4) : State :=
  { s with busy := false, done := true, err := true, errcode := errorCode }

/-- The code-carrying registers as 60 R186 leaves them after UNAVAILABLE or KEY_IMPORT. -/
def State.outputsCleared (s : State) : State :=
  { s with
    digest := Vector.replicate 20 0, offset := 0, trunc := 0, code := 0, ascii := Vector.replicate 6 0 }

/-- The key checks of 60 R182 pass. -/
abbrev State.keyUsable (s : State) : Prop :=
  s.cfg.cryptoAvailable = true ∧ s.keyLen.toNat ≤ s.cfg.keyRamBytes ∧
    (s.keyLen ≠ 0 ∨ s.cfg.rejectEmptyKey = false)

/-- Two states hold the same key: the same length, and the same bytes below it (40 R100, 20 R77). -/
abbrev sameKey (s t : State) : Prop :=
  s.keyLen = t.keyLen ∧ ∀ i < s.keyLen.toNat, s.key.read i = t.key.read i

/-- The offsets of the registers, written out from the table of 10 R22 (apart from the decoder's own map). -/
def registerOffsets : List (Nat × Reg) :=
  [ (0x000, .id), (0x004, .ctrl), (0x008, .status), (0x00C, .hwcfg), (0x010, .keyLen),
    (0x018, .counterHi), (0x01C, .counterLo), (0x020, .timeHi), (0x024, .timeLo), (0x028, .msgHi), (0x02C, .msgLo),
    (0x030, .digest 0), (0x034, .digest 1), (0x038, .digest 2), (0x03C, .digest 3), (0x040, .digest 4),
    (0x044, .offset), (0x048, .trunc), (0x04C, .code), (0x050, .ascii0), (0x054, .ascii1) ]

/-- The bits of a data register a host write stores (10 R22, R29 to R37); none for a read-only register (10 R43). CTRL and
STATUS are no data registers. -/
def storedBits : Reg → Word
  | .keyLen | .counterHi | .counterLo | .timeHi | .timeLo | .msgHi | .msgLo | .digest _ => 0xFFFFFFFF#32
  | .trunc => 0x7FFFFFFF#32
  | .code => 0x000FFFFF#32
  | .id | .ctrl | .status | .hwcfg | .offset | .ascii0 | .ascii1 => 0#32

/-- The register takes host writes (10 R22). -/
def hostWritable (r : Reg) : Bool := storedBits r != 0#32

/-- The commands that use the key (60 R182): MAC, HOTP, TOTP. -/
abbrev usesKey (op : BitVec 4) : Prop := op = 0x2#4 ∨ op = 0x8#4 ∨ op = 0x9#4

/-- The OP codes of 30 R85. -/
abbrev isReservedOp (op : BitVec 4) : Prop :=
  op = 0x0#4 ∨ op = 0x7#4 ∨ op = 0xA#4 ∨ op = 0xB#4 ∨ op = 0xC#4 ∨ op = 0xD#4 ∨ op = 0xE#4 ∨ op = 0xF#4

/-- The offset holds no register and no key word (10 R38). -/
abbrev reservedOffset (c : Config) (off : Nat) : Prop :=
  off = 0x014 ∨ (0x058 ≤ off ∧ off < keyWindow) ∨ (keyWindow + c.keyRamBytes ≤ off ∧ off < windowBytes)

/-- The six characters as a decimal numeral, first character most significant (42 R167). -/
def decimalValue (text : Vector Byte 6) : Nat := text.toList.foldl (fun acc ch => acc * 10 + (ch.toNat - 0x30)) 0

/-- Every character is a decimal digit, 0x30 to 0x39 (41 R137). -/
abbrev allDigits (text : Vector Byte 6) : Prop := ∀ ch ∈ text.toList, 0x30 ≤ ch.toNat ∧ ch.toNat ≤ 0x39

end Sys2Proof.Machine
end

