-- ==== Sys2Proof/Certificates/Slice0/Obligations.lean ====
section
/-! DEFINITION. The statements about the machine, from the spec's numbered rules. A command has two atomic steps, its
acceptance (the host's write, `exec`) and its completion (the engine's, `engineStep`): a statement about a command says
what both leave, as whole states, so that everything it does not name is unchanged. -/

open Sys2Proof Sys2Proof.Machine

/-! ## Encoding -/

/-- Decoding an encoded instruction gives it back, every operand at every value (30 R80, R82, R84, R87). -/
def Obligations.DecodeOfEncode : Prop := ∀ i : Instr, decode (encode i) = i

/-- Every 32-bit CTRL value matches exactly one row of the opcode table, the row of the instruction it decodes to
(30 R82, R84, R85, R87). -/
def Obligations.EveryCtrlWordMatchesItsOneRow : Prop :=
  ∀ w : Word, (opcodeTable.filter fun r => r.admits w).map OpRow.mnemonic = [(decode w).mnemonic]

/-- No value of CTRL bits 30:9 and 3:1 changes what a write does, and they read 0; beside SRST nothing else counts
either (30 R86, R82). -/
def Obligations.ReservedCtrlBitsChangeNothing : Prop :=
  (∀ (v w : Word) (s : State), v &&& 0x800001F1#32 = w &&& 0x800001F1#32 → exec (decode v) s = exec (decode w) s) ∧
  (∀ (v w : Word) (s : State), v.getLsbD 31 = true → w.getLsbD 31 = true → exec (decode v) s = exec (decode w) s) ∧
  ∀ s : State, readReg s .ctrl &&& 0x7FFFFE0E#32 = 0

/-- The decoding order of a CTRL write: soft reset first; then, while busy, the drop; then OP and IRQ_EN, and with START the
acceptance of the command (30 R81; the states are those of 70 R213, 60 R190, 30 R87, 60 R184). That the soft reset keeps
`inputs`, `reply` and `inReset`, the model's own fields, is the model's choice (log 9). -/
def Obligations.CtrlWriteDecodingOrder : Prop :=
  ∀ (v : Word) (s : State),
    exec (decode v) s = .next (
      if v.getLsbD 31 then
        { State.resetOf s.cfg with inputs := s.inputs, reply := s.reply, inReset := s.inReset }
      else if s.busy then { s with ovr := true }
      else if v.getLsbD 0 then s.acceptedWith (v.extractLsb' 4 4) (v.getLsbD 8)
      else { s with op := v.extractLsb' 4 4, irqEn := v.getLsbD 8 })

/-- Words written out from the encoding of 30 R80, R84 decode to the instructions they stand for. -/
def Obligations.WordsFromTheEncodingDecode : Prop :=
  decode 0x00000011#32 = .enc false ∧ decode 0x00000121#32 = .mac true ∧ decode 0x00000031#32 = .trunc false ∧
  decode 0x00000041#32 = .mod false ∧ decode 0x00000051#32 = .fmt false ∧ decode 0x00000061#32 = .tstep false ∧
  decode 0x00000181#32 = .hotp true ∧ decode 0x7FFFFE9F#32 = .totp false ∧ decode 0x80000000#32 = .srst 0 ∧
  decode 0x00000100#32 = .cfg true 0x0#4 ∧ decode 0x000000F0#32 = .cfg false 0xF#4 ∧ decode 0x00000001#32 = .rsvdOp0 false ∧
  decode 0x00000071#32 = .rsvdOp7 false ∧ decode 0x000001F1#32 = .rsvdOpF true

/-! ## The step -/

/-- A step runs the decoded instruction: a full-width host write to CTRL, arriving while reset is not asserted, is `exec`
of the instruction it decodes to, on the state with that input taken and answered `Ok`; and `withFetchWord` makes such a
write arrive next (20 R61, R75; log 15). -/
def Obligations.StepRunsTheDecodedInstruction : Prop :=
  (∀ (s : State) (w : Word) (rest : List Input), s.inReset = false →
    s.inputs = .bus { addr := s.cfg.base + 0x004, lanes := 0xF#4, op := .write w } :: rest →
    step s = exec (decode w) { s with inputs := rest, reply := some .okWrite }) ∧
  ∀ (s : State) (nbits w : Nat) (i : Instr), decodeTableWord nbits w = some i →
    step (s.withFetchWord nbits w) = exec i { s with inReset := false, reply := some .okWrite }

/-- The engine's step is enabled exactly when BUSY = 1 and reset is not asserted; it completes the pending command. At its
turn it moves; otherwise only the turn is used up. With no input left it moves too (60 R185, R188, R201). -/
def Obligations.EngineTurnCompletesThePendingCommand : Prop :=
  ∀ (s : State) (rest : List Input), (s.inputs = [] ∧ rest = []) ∨ s.inputs = .engine :: rest →
    (s.busy = true → s.inReset = false → step s = completePending { s with inputs := rest }) ∧
    (s.busy = false ∨ s.inReset = true → step s = .next { s with inputs := rest })

/-! ## Bus transactions -/

/-- A misaligned, partial or unmapped transaction, read or write, busy or idle, answers `BusError` and changes no state
(20 R62, R63, R64, 10 R38). -/
def Obligations.BadAccessAnswersBusErrorAndChangesNothing : Prop :=
  ∀ (s : State) (off : Nat) (lanes : BitVec 4) (op : BusOp) (rest : List Input), off < windowBytes →
    s.inReset = false → s.inputs = .bus { addr := s.cfg.base + off, lanes := lanes, op := op } :: rest →
    (off % 4 ≠ 0 ∨ lanes ≠ 0xF#4 ∨ reservedOffset s.cfg off) →
    step s = .next { s with inputs := rest, reply := some .busError }

/-- A read of any offset changes no state, busy or idle: only the input is taken and the answer given (20 R69). -/
def Obligations.ReadsChangeNoState : Prop :=
  ∀ (s : State) (off : Nat) (lanes : BitVec 4) (rest : List Input), off < windowBytes → s.inReset = false →
    s.inputs = .bus { addr := s.cfg.base + off, lanes := lanes, op := .read } :: rest →
    ∃ answer, step s = .next { s with inputs := rest, reply := some answer }

/-- A mapped read, at the offsets that the table of 10 R22 gives the registers, answers `Ok` with its register's value, a key
RAM word with 0; every register has an offset there (20 R61, 10 R22, R39). -/
def Obligations.MappedReadAnswersItsRegister : Prop :=
  ∀ (s : State) (rest : List Input), s.inReset = false → s.cfg.keyRamBytes ≤ 65536 →
    (∀ r : Reg, ∃ off, (off, r) ∈ registerOffsets) ∧
    (∀ p ∈ registerOffsets, s.inputs = .bus { addr := s.cfg.base + p.1, lanes := 0xF#4, op := .read } :: rest →
      step s = .next { s with inputs := rest, reply := some (.okRead (readReg s p.2)) }) ∧
    ∀ j : Nat, 4 * j < s.cfg.keyRamBytes →
      s.inputs = .bus { addr := s.cfg.base + (0x10000 + 4 * j), lanes := 0xF#4, op := .read } :: rest →
      step s = .next { s with inputs := rest, reply := some (.okRead 0) }

/-- STATUS field by field (10 R27). -/
def Obligations.StatusReadsItsFields : Prop :=
  ∀ s : State,
    (readReg s .status).getLsbD 0 = s.busy ∧ (readReg s .status).getLsbD 1 = s.done ∧
    (readReg s .status).getLsbD 2 = s.err ∧ (readReg s .status).getLsbD 3 = false ∧
    (readReg s .status).extractLsb' 4 4 = s.errcode ∧ (readReg s .status).getLsbD 8 = s.ovr ∧
    (readReg s .status).toNat < 2 ^ 9

/-- ID, CTRL and HWCFG (10 R25, R26, R28): the identification constant; OP and IRQ_EN with every other bit 0; the part's
parameters. -/
def Obligations.IdCtrlAndHwcfgReadTheirFields : Prop :=
  ∀ s : State,
    readReg s .id = 0x4F545031#32 ∧
    (readReg s .ctrl).extractLsb' 4 4 = s.op ∧ (readReg s .ctrl).getLsbD 8 = s.irqEn ∧
    readReg s .ctrl &&& 0xFFFFFE0F#32 = 0 ∧
    (s.cfg.keyRamBytes ≤ 65536 →
      (readReg s .hwcfg).toNat = s.cfg.keyRamBytes / 4 + (if s.cfg.cryptoAvailable then 0x10000 else 0) +
        (if s.cfg.rejectEmptyKey then 0x20000 else 0))

/-- The data registers, as numbers (10 R29 to R37, 20 R65): 64-bit numbers as their halves, byte strings most significant
byte first, ASCII1 with its two characters in the upper half. -/
def Obligations.DataRegistersReadTheirContents : Prop :=
  ∀ s : State,
    readReg s .keyLen = s.keyLen ∧
    (readReg s .counterHi).toNat = s.counter.toNat / 2 ^ 32 ∧ (readReg s .counterLo).toNat = s.counter.toNat % 2 ^ 32 ∧
    (readReg s .timeHi).toNat = s.time.toNat / 2 ^ 32 ∧ (readReg s .timeLo).toNat = s.time.toNat % 2 ^ 32 ∧
    (readReg s .msgHi).toNat = be (s.msg.toList.take 4) ∧ (readReg s .msgLo).toNat = be (s.msg.toList.drop 4) ∧
    (∀ i : Fin 5, (readReg s (.digest i)).toNat = be ((s.digest.toList.drop (4 * i.val)).take 4)) ∧
    (readReg s .offset).toNat = s.offset.toNat ∧ (readReg s .trunc).toNat = s.trunc.toNat ∧
    (readReg s .code).toNat = s.code.toNat ∧
    (readReg s .ascii0).toNat = be (s.ascii.toList.take 4) ∧
    (readReg s .ascii1).toNat = be (s.ascii.toList.drop 4) * 2 ^ 16

/-- The key is never readable: two states that differ in the key RAM only answer every read alike (10 R39, 70 R228). -/
def Obligations.NoReadDependsOnTheKey : Prop :=
  ∀ (s : State) (key : Memory) (off : Nat) (lanes : BitVec 4) (rest : List Input), off < windowBytes →
    s.inReset = false → s.inputs = .bus { addr := s.cfg.base + off, lanes := lanes, op := .read } :: rest →
    ∃ answer, step s = .next { s with inputs := rest, reply := some answer } ∧
      step { s with key := key } = .next { s with key := key, inputs := rest, reply := some answer }

/-- While idle, a host write of a data register, at its offset in the table of 10 R22, stores the bits the register takes and reads back so, a read-only register
keeps its value; every other register and the whole key RAM are unchanged, and the answer is `Ok`
(10 R29 to R37, R43). -/
def Obligations.IdleRegisterWriteStoresAndReadsBack : Prop :=
  ∀ (s : State) (off : Nat) (r : Reg) (v : Word) (rest : List Input), (off, r) ∈ registerOffsets → r ≠ .ctrl →
    r ≠ .status → s.busy = false → s.inReset = false →
    s.inputs = .bus { addr := s.cfg.base + off, lanes := 0xF#4, op := .write v } :: rest →
    ∃ t, step s = .next t ∧
      readReg t r = (if hostWritable r then v &&& storedBits r else readReg s r) ∧
      (∀ r' : Reg, r' ≠ r → readReg t r' = readReg s r') ∧
      (∀ a : Nat, t.key.read a = s.key.read a) ∧ t.key = s.key ∧
      t.inputs = rest ∧ t.reply = some .okWrite ∧ t.cfg = s.cfg ∧ t.pending = s.pending ∧ t.inReset = false

/-- While idle, a host write of KEY[j] stores its four bytes, the first in bits 31:24; every other key byte and every other
part of the state is unchanged (10 R39, 20 R65). -/
def Obligations.IdleKeyWriteStoresFourBytes : Prop :=
  ∀ (s : State) (j : Nat) (v : Word) (rest : List Input), s.inv → 4 * j < s.cfg.keyRamBytes → s.busy = false →
    s.inReset = false →
    s.inputs = .bus { addr := s.cfg.base + (0x10000 + 4 * j), lanes := 0xF#4, op := .write v } :: rest →
    ∃ key, step s = .next { s with key := key, inputs := rest, reply := some .okWrite } ∧
      (∀ a : Nat, a / 4 ≠ j → Memory.read key a = s.key.read a) ∧
      [Memory.read key (4 * j), Memory.read key (4 * j + 1), Memory.read key (4 * j + 2),
        Memory.read key (4 * j + 3)] = bytesBe v.toNat 4

/-- Writes while busy: dropped, setting OVR and changing nothing else, but for STATUS, which applies its OVR clear only, and
a CTRL write with SRST, which keeps the model's own fields (log 9) (60 R190, 10 R22, R27, R43). -/
def Obligations.WritesWhileBusyAreDropped : Prop :=
  ∀ (s : State) (v : Word) (rest : List Input), s.busy = true → s.inReset = false → s.cfg.keyRamBytes ≤ 65536 →
    (∀ p ∈ registerOffsets, p.2 ≠ .status → (p.2 = .ctrl → v.getLsbD 31 = false) →
      s.inputs = .bus { addr := s.cfg.base + p.1, lanes := 0xF#4, op := .write v } :: rest →
      step s = .next { s with ovr := true, inputs := rest, reply := some .okWrite }) ∧
    (∀ j : Nat, 4 * j < s.cfg.keyRamBytes →
      s.inputs = .bus { addr := s.cfg.base + (0x10000 + 4 * j), lanes := 0xF#4, op := .write v } :: rest →
      step s = .next { s with ovr := true, inputs := rest, reply := some .okWrite }) ∧
    (s.inputs = .bus { addr := s.cfg.base + 0x008, lanes := 0xF#4, op := .write v } :: rest →
      step s = .next { s with ovr := s.ovr && !v.getLsbD 8, inputs := rest, reply := some .okWrite }) ∧
    (v.getLsbD 31 = true →
      s.inputs = .bus { addr := s.cfg.base + 0x004, lanes := 0xF#4, op := .write v } :: rest →
      step s = .next { State.resetOf s.cfg with inputs := rest, reply := some .okWrite })

/-- A STATUS write while idle: bit 1 clears DONE, bit 2 clears ERR and ERRCODE, bit 8 clears OVR; nothing else changes, so
the registers an error cleared stay cleared (10 R27, 60 R191). -/
def Obligations.IdleStatusWriteAcknowledges : Prop :=
  ∀ (s : State) (v : Word) (rest : List Input), s.busy = false → s.inReset = false →
    s.inputs = .bus { addr := s.cfg.base + 0x008, lanes := 0xF#4, op := .write v } :: rest →
    step s = .next { s with
      done := if v.getLsbD 1 then false else s.done
      err := if v.getLsbD 2 then false else s.err
      errcode := if v.getLsbD 2 then 0 else s.errcode
      ovr := if v.getLsbD 8 then false else s.ovr
      inputs := rest, reply := some .okWrite }

/-- While BUSY stays 1, every register reads as it did, except STATUS.OVR (20 R73 (a), 70 R220). -/
def Obligations.RegistersHoldWhileBusy : Prop :=
  ∀ s t : State, s.busy = true → step s = .next t → t.busy = true →
    (∀ r : Reg, r ≠ .status → readReg t r = readReg s r) ∧
    readReg t .status &&& 0xFFFFFEFF#32 = readReg s .status &&& 0xFFFFFEFF#32 ∧
    (∀ a : Nat, t.key.read a = s.key.read a) ∧ t.pending = s.pending

/-! ## Reset -/

/-- The reset input asserted and released, from any state, leaves every state element at its reset value, and raises no
`irq` (70 R210, R211, R212). -/
def Obligations.HardwareResetLeavesTheResetState : Prop :=
  ∀ (s : State) (rest : List Input), s.inputs = .resetAssert :: .resetRelease :: rest →
    core.run 2 s = .next
      { key := [], keyLen := 0, counter := 0, time := 0
        msg := #v[0, 0, 0, 0, 0, 0, 0, 0]
        digest := #v[0, 0, 0, 0, 0, 0, 0, 0, 0, 0, 0, 0, 0, 0, 0, 0, 0, 0, 0, 0]
        offset := 0, trunc := 0, code := 0, ascii := #v[0, 0, 0, 0, 0, 0]
        op := 0, irqEn := false, busy := false, pending := 0
        done := false, err := false, errcode := 0, ovr := false
        cfg := s.cfg, inputs := rest, reply := none, inReset := false }

/-- While reset is asserted no transaction is accepted and no step is taken: whatever arrives, but for the reset input
itself, changes no state element, and no transaction is answered (70 R210). -/
def Obligations.NothingMovesWhileResetIsAsserted : Prop :=
  ∀ (s : State) (i : Input) (rest : List Input), s.inReset = true → s.inputs = i :: rest →
    i ≠ .resetAssert → i ≠ .resetRelease →
    ∃ inputs reply, step s = .next { s with inputs := inputs, reply := reply } ∧ (reply = none ∨ reply = s.reply) ∧
      ∀ a : Access, i = .bus a → reply = none

/-- After reset every register of the map reads its reset value, the key RAM is zero and `irq` is 0, on every part
(10 R22, 70 R210). -/
def Obligations.RegistersReadTheirResetValues : Prop :=
  ∀ c : Config,
    (∀ r : Reg, r ≠ .id → r ≠ .hwcfg → readReg (State.resetOf c) r = 0) ∧
    readReg (State.resetOf c) .id = 0x4F545031#32 ∧
    (∀ a : Nat, (State.resetOf c).key.read a = 0) ∧ (State.resetOf c).irq = false ∧
    readReg State.reset .hwcfg = 0x00010100#32

/-! ## The commands -/

/-- ENC: the message becomes the counter, most significant byte first, so MSG reads as COUNTER
(41 R130, R131, 20 R66). -/
def Obligations.EncWritesTheBigEndianCounter : Prop :=
  ∀ (irqEn : Bool) (s : State), s.busy = false → s.inReset = false →
    exec (.enc irqEn) s = .next (s.acceptedWith 0x1#4 irqEn) ∧
    ∃ msg, engineStep (s.acceptedWith 0x1#4 irqEn) = .next { (s.acceptedWith 0x1#4 irqEn).completedOk with msg := msg } ∧
      be msg.toList = s.counter.toNat ∧
      readReg { s with msg := msg } .msgHi = readReg s .counterHi ∧
      readReg { s with msg := msg } .msgLo = readReg s .counterLo

/-- MAC: the digest becomes HMAC_SHA1 of the first KEY_LEN key bytes and the message (40 R100, R101, R112). -/
def Obligations.MacWritesTheHmac : Prop :=
  ∀ (irqEn : Bool) (s : State), s.busy = false → s.inReset = false → s.keyUsable →
    exec (.mac irqEn) s = .next (s.acceptedWith 0x2#4 irqEn) ∧
    ∃ key : List Byte, key.length = s.keyLen.toNat ∧ (∀ i (h : i < key.length), key[i] = s.key.read i) ∧
      engineStep (s.acceptedWith 0x2#4 irqEn) =
        .next { (s.acceptedWith 0x2#4 irqEn).completedOk with digest := hmacSha1 key s.msg.toList }

/-- TRUNC: the low nibble of the last digest byte selects four bytes; their big-endian value without its top bit is the
result (41 R132, R134). -/
def Obligations.TruncSelectsTheWindow : Prop :=
  ∀ (irqEn : Bool) (s : State), s.busy = false → s.inReset = false →
    exec (.trunc irqEn) s = .next (s.acceptedWith 0x3#4 irqEn) ∧
    ∃ offset trunc, engineStep (s.acceptedWith 0x3#4 irqEn) =
        .next { (s.acceptedWith 0x3#4 irqEn).completedOk with offset := offset, trunc := trunc } ∧
      offset.toNat = s.digest[19].toNat % 16 ∧
      trunc.toNat = be ((s.digest.toList.drop offset.toNat).take 4) % 2 ^ 31

/-- MOD: CODE becomes TRUNC mod 10^6 (41 R135, R136). -/
def Obligations.ModReducesModuloAMillion : Prop :=
  ∀ (irqEn : Bool) (s : State), s.busy = false → s.inReset = false →
    exec (.mod irqEn) s = .next (s.acceptedWith 0x4#4 irqEn) ∧
    ∃ code, engineStep (s.acceptedWith 0x4#4 irqEn) = .next { (s.acceptedWith 0x4#4 irqEn).completedOk with code := code } ∧
      code.toNat = s.trunc.toNat % 1000000

/-- FMT: six decimal digits whose numeral is CODE mod 10^6, leading zeros kept (41 R137, R138). -/
def Obligations.FmtRendersSixDigits : Prop :=
  ∀ (irqEn : Bool) (s : State), s.busy = false → s.inReset = false →
    exec (.fmt irqEn) s = .next (s.acceptedWith 0x5#4 irqEn) ∧
    ∃ ascii,
      engineStep (s.acceptedWith 0x5#4 irqEn) = .next { (s.acceptedWith 0x5#4 irqEn).completedOk with ascii := ascii } ∧
      allDigits ascii ∧ decimalValue ascii = s.code.toNat % 1000000

/-- TSTEP: COUNTER becomes floor(TIME / 30), below 2^60 (41 R139, R140). -/
def Obligations.TstepDividesTheTime : Prop :=
  ∀ (irqEn : Bool) (s : State), s.busy = false → s.inReset = false →
    exec (.tstep irqEn) s = .next (s.acceptedWith 0x6#4 irqEn) ∧
    ∃ counter,
      engineStep (s.acceptedWith 0x6#4 irqEn) = .next { (s.acceptedWith 0x6#4 irqEn).completedOk with counter := counter } ∧
      counter.toNat = s.time.toNat / 30 ∧ counter.toNat < 2 ^ 60

/-- HOTP: the five stages in order, each on what the one before wrote; COUNTER unchanged (42 R160, R161). -/
def Obligations.HotpRunsItsFiveStages : Prop :=
  ∀ (irqEn : Bool) (s : State), s.busy = false → s.inReset = false → s.keyUsable →
    exec (.hotp irqEn) s = .next (s.acceptedWith 0x8#4 irqEn) ∧
    ∃ key : List Byte, key.length = s.keyLen.toNat ∧ (∀ i (h : i < key.length), key[i] = s.key.read i) ∧
      engineStep (s.acceptedWith 0x8#4 irqEn) = .next { (s.acceptedWith 0x8#4 irqEn).completedOk with
        msg := encodeCounter s.counter
        digest := hmacSha1 key (encodeCounter s.counter).toList
        offset := truncOffset (hmacSha1 key (encodeCounter s.counter).toList)
        trunc := truncResult (hmacSha1 key (encodeCounter s.counter).toList)
        code := reduce (truncResult (hmacSha1 key (encodeCounter s.counter).toList))
        ascii := render (reduce (truncResult (hmacSha1 key (encodeCounter s.counter).toList))) }

/-- TOTP: COUNTER becomes floor(TIME / 30), then HOTP's stages on it (42 R162, R163). -/
def Obligations.TotpRunsTheTimeStepThenHotp : Prop :=
  ∀ (irqEn : Bool) (s : State), s.busy = false → s.inReset = false → s.keyUsable →
    exec (.totp irqEn) s = .next (s.acceptedWith 0x9#4 irqEn) ∧
    ∃ (key : List Byte) (counter : BitVec 64), key.length = s.keyLen.toNat ∧
      (∀ i (h : i < key.length), key[i] = s.key.read i) ∧ counter.toNat = s.time.toNat / 30 ∧
      engineStep (s.acceptedWith 0x9#4 irqEn) = .next { (s.acceptedWith 0x9#4 irqEn).completedOk with
        counter := counter
        msg := encodeCounter counter
        digest := hmacSha1 key (encodeCounter counter).toList
        offset := truncOffset (hmacSha1 key (encodeCounter counter).toList)
        trunc := truncResult (hmacSha1 key (encodeCounter counter).toList)
        code := reduce (truncResult (hmacSha1 key (encodeCounter counter).toList))
        ascii := render (reduce (truncResult (hmacSha1 key (encodeCounter counter).toList))) }

/-- SRST: every state element to its reset value, busy or idle, whatever the other bits; an outstanding command is gone and
`irq` is 0 (30 R82, 70 R213). -/
def Obligations.SoftResetClearsEverything : Prop :=
  ∀ (ignored : BitVec 31) (s : State),
    exec (.srst ignored) s =
      .next { State.resetOf s.cfg with inputs := s.inputs, reply := s.reply, inReset := s.inReset } ∧
    (State.resetOf s.cfg).busy = false ∧ (State.resetOf s.cfg).irq = false

/-- CFG: while idle OP and IRQ_EN are stored and nothing else changes, neither BUSY nor DONE; and the CTRL values that do so
are those with 0 under the mask 0x80000001 (30 R87). -/
def Obligations.ConfigurationWriteStoresOpAndIrqEn : Prop :=
  (∀ (irqEn : Bool) (op : BitVec 4) (s : State), s.busy = false →
    exec (.cfg irqEn op) s = .next { s with op := op, irqEn := irqEn }) ∧
  ∀ v : Word, v &&& 0x80000001#32 = 0x00000000#32 ↔ decode v = .cfg (v.getLsbD 8) (v.extractLsb' 4 4)

/-- The eight reserved OP codes: accepted like any command, they complete with BAD_OP and change nothing but STATUS,
CTRL.OP and CTRL.IRQ_EN (30 R85, 60 R186). -/
def Obligations.ReservedOpsCompleteWithBadOp : Prop :=
  ∀ (irqEn : Bool) (s : State), s.busy = false → s.inReset = false →
    ∀ p ∈ ([(.rsvdOp0, 0x0#4), (.rsvdOp7, 0x7#4), (.rsvdOpA, 0xA#4), (.rsvdOpB, 0xB#4), (.rsvdOpC, 0xC#4), (.rsvdOpD, 0xD#4),
        (.rsvdOpE, 0xE#4), (.rsvdOpF, 0xF#4)] : List ((Bool → Instr) × BitVec 4)),
      exec (p.1 irqEn) s = .next (s.acceptedWith p.2 irqEn) ∧
      engineStep (s.acceptedWith p.2 irqEn) = .next ((s.acceptedWith p.2 irqEn).completedErr 1)

/-- A command, or a configuration write, issued while busy is dropped and not queued: nothing changes but OVR
(60 R190, R192). -/
def Obligations.InstructionsWhileBusyAreDropped : Prop :=
  ∀ (i : Instr) (s : State), (∀ ignored, i ≠ .srst ignored) → s.busy = true →
    exec i s = .next { s with ovr := true }

/-- MAC, HOTP and TOTP whose key check fails complete with UNAVAILABLE before KEY_IMPORT; the code-carrying registers are
cleared and everything else keeps its value: no stage has run (60 R182, R183, R186). -/
def Obligations.FailedKeyCheckClearsTheOutputs : Prop :=
  ∀ (irqEn : Bool) (s : State), s.busy = false → s.inReset = false → ¬s.keyUsable →
    ∀ p ∈ ([(.mac, 0x2#4), (.hotp, 0x8#4), (.totp, 0x9#4)] : List ((Bool → Instr) × BitVec 4)),
      exec (p.1 irqEn) s = .next (s.acceptedWith p.2 irqEn) ∧
      engineStep (s.acceptedWith p.2 irqEn) =
        .next ((s.acceptedWith p.2 irqEn).outputsCleared.completedErr (if s.cfg.cryptoAvailable then 3 else 2))

/-! ## Properties of the commands -/

/-- HOTP leaves what ENC, MAC, TRUNC, MOD and FMT leave one after another as separate commands, but for the OP code itself
(42 R161). -/
def Obligations.HotpEqualsItsStagesAsCommands : Prop :=
  ∀ (s : State) (irqEn : Bool) (rest : List Input), s.busy = false → s.inReset = false → s.keyUsable →
    let write (i : Instr) : Input :=
      .bus { addr := s.cfg.base + 0x004, lanes := 0xF#4, op := .write (encode i) }
    ∃ t, core.run 10 { s with inputs :=
        [write (.enc irqEn), .engine, write (.mac irqEn), .engine, write (.trunc irqEn), .engine,
          write (.mod irqEn), .engine, write (.fmt irqEn), .engine] ++ rest } = .next t ∧
      core.run 2 { s with inputs := [write (.hotp irqEn), .engine] ++ rest } =
        .next { t with op := 0x8#4, pending := 0x8#4 }

/-- TOTP leaves what TSTEP and then HOTP leave as separate commands, but for the OP code itself (42 R163). -/
def Obligations.TotpEqualsTstepThenHotp : Prop :=
  ∀ (s : State) (irqEn : Bool) (rest : List Input), s.busy = false → s.inReset = false → s.keyUsable →
    let write (i : Instr) : Input :=
      .bus { addr := s.cfg.base + 0x004, lanes := 0xF#4, op := .write (encode i) }
    ∃ t, core.run 4 { s with inputs := [write (.tstep irqEn), .engine, write (.hotp irqEn), .engine] ++ rest } =
        .next t ∧
      core.run 2 { s with inputs := [write (.totp irqEn), .engine] ++ rest } =
        .next { t with op := 0x9#4, pending := 0x9#4 }

/-- Two TOTP commands with the same key and times in the same 30-second window give the same code (42 R165). -/
def Obligations.SameTimeWindowSameCode : Prop :=
  ∀ s t : State, s.busy = true → t.busy = true → s.inReset = false → t.inReset = false → s.pending = 0x9#4 →
    t.pending = 0x9#4 → s.cfg = t.cfg → sameKey s t → s.time.toNat / 30 = t.time.toNat / 30 →
    ∃ u w, engineStep s = .next u ∧ engineStep t = .next w ∧ u.ascii = w.ascii ∧ u.code = w.code ∧
      u.err = w.err ∧ u.errcode = w.errcode

/-- MAC's digest depends on the key bytes below KEY_LEN, KEY_LEN and the message alone (on one part): stale key bytes past
KEY_LEN take no part (40 R114, 20 R77, 70 R227). -/
def Obligations.MacDependsOnKeyAndMessageOnly : Prop :=
  ∀ s t : State, s.busy = true → t.busy = true → s.inReset = false → t.inReset = false → s.pending = 0x2#4 →
    t.pending = 0x2#4 → s.cfg = t.cfg → sameKey s t → s.msg = t.msg →
    ∃ u w, engineStep s = .next u ∧ engineStep t = .next w ∧ u.digest = w.digest ∧ u.errcode = w.errcode

/-- HOTP on equal keys and counters, and TOTP on equal keys and times, write equal outputs every time; where the key check
passes, equal MSG and COUNTER too (42 R164). -/
def Obligations.OtpOutputsAreDetermined : Prop :=
  ∀ s t : State, s.busy = true → t.busy = true → s.inReset = false → t.inReset = false → s.pending = t.pending →
    s.cfg = t.cfg → sameKey s t →
    (s.pending = 0x8#4 ∧ s.counter = t.counter) ∨ (s.pending = 0x9#4 ∧ s.time = t.time) →
    ∃ u w, engineStep s = .next u ∧ engineStep t = .next w ∧ u.errcode = w.errcode ∧ u.digest = w.digest ∧
      u.offset = w.offset ∧ u.trunc = w.trunc ∧ u.code = w.code ∧ u.ascii = w.ascii ∧
      (u.errcode = 0 → u.msg = w.msg ∧ u.counter = w.counter)

/-- After HOTP or TOTP: with ERRCODE 0 six decimal digits whose numeral is CODE < 10^6, with an error six 0x00 bytes, which
match no code (42 R167, 60 R204). -/
def Obligations.OtpFormatInvariant : Prop :=
  ∀ s : State, s.busy = true → s.inReset = false → s.pending = 0x8#4 ∨ s.pending = 0x9#4 →
    ∃ t, engineStep s = .next t ∧
      (t.errcode = 0 → allDigits t.ascii ∧ decimalValue t.ascii = t.code.toNat ∧ t.code.toNat < 1000000) ∧
      (t.errcode ≠ 0 → t.ascii = Vector.replicate 6 0 ∧ ¬allDigits t.ascii)

/-- The window lies in bytes 0 to 18: the last byte is never part of it, its high nibble is ignored, and the result's top bit
is 0 (41 R133). -/
def Obligations.TruncationWindowBounds : Prop :=
  ∀ (d : Vector Byte 20) (b : Byte), b.toNat % 16 = d[19].toNat % 16 →
    truncOffset (d.set 19 b) = truncOffset d ∧ truncResult (d.set 19 b) = truncResult d ∧
    (truncWord d).toNat ≤ 2 ^ 31 - 1 ∧ (truncOffset d).toNat + 3 ≤ 18

/-! ## Invariants and whole-machine rules -/

/-- Every step keeps the flag invariants (10 R42), and that the outstanding command is CTRL.OP's (10 R40). -/
def Obligations.EveryStepKeepsTheFlagInvariants : Prop :=
  ∀ s t : State, s.flagsOk → s.pendingOk → step s = .next t → t.flagsOk ∧ t.pendingOk

/-- Every step leaves the part's parameters as they are, in every state; and on a legal part it keeps the key RAM in its
canonical form and inside the part's key RAM (10 R25, R28, R39, 00_scope R8; the form is the model's, log 17). -/
def Obligations.EveryStepKeepsTheKeyRamForm : Prop :=
  ∀ s t : State, step s = .next t → t.cfg = s.cfg ∧ (s.cfg.legal → s.keyOk → t.cfg.legal ∧ t.keyOk)

/-- The invariants hold after reset, on every legal part and on the one `State.reset` has (70 R210). -/
def Obligations.ResetMeetsTheInvariants : Prop :=
  (∀ c : Config, c.legal → (State.resetOf c).inv) ∧ State.reset.inv

/-- No step faults or refuses: the engine takes no trap, and every state has a next one (60 R180). -/
def Obligations.NoStepFaultsOrRefuses : Prop := ∀ s : State, ∃ t, step s = .next t

/-- Every accepted command completes in one engine step: BUSY 0, DONE 1, ERR exactly when the code is not 0, the code at most
3, `irq` as IRQ_EN says (60 R180, R188, R193). -/
def Obligations.EveryAcceptedCommandCompletes : Prop :=
  ∀ (s : State) (rest : List Input), s.busy = true → s.inReset = false →
    (s.inputs = [] ∧ rest = []) ∨ s.inputs = .engine :: rest →
    ∃ t, step s = .next t ∧ t.busy = false ∧ t.done = true ∧ (t.err = true ↔ t.errcode ≠ 0) ∧ t.errcode.toNat ≤ 3 ∧
      t.irq = t.irqEn ∧ t.inputs = rest

/-- Who writes what (10 R44): no command writes the key, KEY_LEN, TIME, OP, IRQ_EN or OVR; each other data element is
written by its commands only, and cleared by a failed key check only. -/
def Obligations.WritersOfEachElement : Prop :=
  ∀ s t : State, s.busy = true → s.inReset = false → engineStep s = .next t →
    (t.key = s.key ∧ t.keyLen = s.keyLen ∧ t.time = s.time ∧ t.op = s.op ∧ t.irqEn = s.irqEn ∧ t.ovr = s.ovr) ∧
    (t.counter ≠ s.counter → s.pending = 0x6#4 ∨ s.pending = 0x9#4) ∧
    (t.msg ≠ s.msg → s.pending = 0x1#4 ∨ s.pending = 0x8#4 ∨ s.pending = 0x9#4) ∧
    (t.digest ≠ s.digest → usesKey s.pending) ∧
    (t.offset ≠ s.offset ∨ t.trunc ≠ s.trunc →
      s.pending = 0x3#4 ∨ s.pending = 0x8#4 ∨ s.pending = 0x9#4 ∨ (s.pending = 0x2#4 ∧ t.err = true)) ∧
    (t.code ≠ s.code → s.pending = 0x4#4 ∨ s.pending = 0x8#4 ∨ s.pending = 0x9#4 ∨ (s.pending = 0x2#4 ∧ t.err = true)) ∧
    (t.ascii ≠ s.ascii → s.pending = 0x5#4 ∨ s.pending = 0x8#4 ∨ s.pending = 0x9#4 ∨ (s.pending = 0x2#4 ∧ t.err = true)) ∧
    (isReservedOp s.pending → t = s.completedErr 1)

/-- The key RAM changes only by a host write of a key word while idle, by a soft reset or by the reset input
(20 R77). -/
def Obligations.OnlyHostWritesAndResetsChangeTheKey : Prop :=
  ∀ s t : State, step s = .next t → t.key ≠ s.key →
    (∃ rest, s.inputs = .resetAssert :: rest ∨ s.inputs = .resetRelease :: rest) ∨
    ∃ a rest off v, s.inputs = .bus a :: rest ∧ a.op = .write v ∧ windowOffset s.cfg a.addr = some off ∧
      ((off = 0x004 ∧ v.getLsbD 31 = true) ∨
        (0x10000 ≤ off ∧ off < 0x10000 + s.cfg.keyRamBytes ∧ s.busy = false))

/-- `irq` rises only when a command completes, or when a configuration write enables it over a DONE already set
(60 R193, R194). -/
def Obligations.IrqRisesOnlyByCompletionOrEnable : Prop :=
  ∀ s t : State, step s = .next t → s.irq = false → t.irq = true →
    (s.busy = true ∧ t.busy = false) ∨
    ∃ a rest v, s.inputs = .bus a :: rest ∧ a.op = .write v ∧ windowOffset s.cfg a.addr = some 0x004 ∧
      v.getLsbD 31 = false ∧ v.getLsbD 0 = false ∧ v.getLsbD 8 = true ∧ s.done = true ∧ s.busy = false

/-- WAITDONE on a busy engine ends: the command completes, and the next poll reads DONE = 1 (30 R89, 60 R188). -/
def Obligations.WaitDoneEnds : Prop :=
  ∀ (s : State) (rest : List Input), s.flagsOk → s.busy = true → s.inReset = false → s.inputs = .waitDone :: rest →
    ∃ t, step s = .next t ∧ t.busy = false ∧ t.done = true ∧ t.inputs = .waitDone :: rest ∧
      step t = .next { t with inputs := rest, reply := some (.okRead (readReg t .status)) }

/-! ## Host programs -/

/-- `CMD m` and `CMD m, IRQ` are the CTRL write of that command (30 R88, R89, R84). -/
def Obligations.CmdStatementIsItsCommand : Prop :=
  ∀ (c : Config) (op : BitVec 4) (irq : Bool),
    ∃ w, expandStmt c (.cmd op irq) =
        .next [.bus { addr := c.base + 0x004, lanes := 0xF#4, op := .write w }] ∧
      decode w = commandOf op irq

/-- `LDCTR c` and `LDTIME t` load a 64-bit number in two writes, and nothing else; a wider one is refused, not truncated
(30 R89, 41 R131). The spec says that of a counter; that a wider time is refused is the model's deduction (log 14). -/
def Obligations.LoadStatementsLoadSixtyFourBits : Prop :=
  ∀ (n : Nat) (c : Config),
    (2 ^ 64 ≤ n → expandStmt c (.ldctr n) = .refused .counterTooWide ∧
      expandStmt c (.ldtime n) = .refused .timeTooWide) ∧
    (n < 2 ^ 64 → ∃ ctr time, expandStmt c (.ldctr n) = .next ctr ∧ expandStmt c (.ldtime n) = .next time ∧
      ∀ (s : State) (rest : List Input), s.cfg = c → s.busy = false → s.inReset = false →
        core.run 2 { s with inputs := ctr ++ rest } =
          .next { s with counter := BitVec.ofNat 64 n, inputs := rest, reply := some .okWrite } ∧
        core.run 2 { s with inputs := time ++ rest } =
          .next { s with time := BitVec.ofNat 64 n, inputs := rest, reply := some .okWrite })

/-- `LDKEY` loads exactly its bytes as the key, on any legal part that can hold them: the key bytes and KEY_LEN; the
bytes that pad the last word read 0x00; those past it, and every other part of the state, are unchanged (30 R89, 10 R39, 40 R100). -/
def Obligations.LdkeyLoadsTheKey : Prop :=
  ∀ (s : State) (bytes : List Byte) (rest : List Input), s.inv → s.busy = false → s.inReset = false →
    bytes.length ≤ s.cfg.keyRamBytes →
    ∃ arriving n key, expandStmt s.cfg (.ldkey bytes) = .next arriving ∧
      core.run n { s with inputs := arriving ++ rest } =
        .next { s with key := key, keyLen := BitVec.ofNat 32 bytes.length, inputs := rest, reply := some .okWrite } ∧
      (∀ i (h : i < bytes.length), Memory.read key i = bytes[i]) ∧
      (∀ a, bytes.length ≤ a → a < 4 * ((bytes.length + 3) / 4) → Memory.read key a = 0x00#8) ∧
      ∀ a, 4 * ((bytes.length + 3) / 4) ≤ a → Memory.read key a = s.key.read a

/-- What the other pseudo-instructions leave (30 R89): `LDMSG` the message, `LDDIG` the digest, `CLRST` DONE, ERR, ERRCODE and
OVR 0 (while busy OVR alone, 10 R27), `SRST` the reset state, each changing nothing else; `WAITIRQ` ends when `irq` is 1, at
once if it is, and after the completion if a command with IRQ_EN is outstanding (60 R193). The soft reset's keeping of the
model's own fields is log 9, that WAITIRQ is one input is log 12. -/
def Obligations.OtherPseudoInstructionsLeaveTheirEffects : Prop :=
  ∀ (s : State) (rest : List Input), s.inReset = false →
    (∀ bytes : Vector Byte 8, s.busy = false → ∃ arriving, expandStmt s.cfg (.ldmsg bytes) = .next arriving ∧
      core.run 2 { s with inputs := arriving ++ rest } =
        .next { s with msg := bytes, inputs := rest, reply := some .okWrite }) ∧
    (∀ bytes : Vector Byte 20, s.busy = false → ∃ arriving, expandStmt s.cfg (.lddig bytes) = .next arriving ∧
      core.run 5 { s with inputs := arriving ++ rest } =
        .next { s with digest := bytes, inputs := rest, reply := some .okWrite }) ∧
    (∃ arriving, expandStmt s.cfg .clrst = .next arriving ∧
      core.run 1 { s with inputs := arriving ++ rest } = .next
        (if s.busy then { s with ovr := false, inputs := rest, reply := some .okWrite }
        else { s with done := false, err := false, errcode := 0, ovr := false, inputs := rest, reply := some .okWrite })) ∧
    (∃ arriving, expandStmt s.cfg .srst = .next arriving ∧
      core.run 1 { s with inputs := arriving ++ rest } =
        .next { State.resetOf s.cfg with inputs := rest, reply := some .okWrite }) ∧
    expandStmt s.cfg .waitIrq = .next [.waitIrq] ∧
    (s.inputs = .waitIrq :: rest →
      (s.irq = true → step s = .next { s with inputs := rest }) ∧
      (s.flagsOk → s.busy = true → s.irqEn = true →
        ∃ t, step s = .next t ∧ t.busy = false ∧ t.irq = true ∧ t.inputs = .waitIrq :: rest ∧
          step t = .next { t with inputs := rest }))

/-- The boot sequence of 70 R215: LDKEY, LDCTR, CMD HOTP and WAITDONE on an idle engine with an available hash unit end with
the HOTP code of that key and counter in ASCII, DONE = 1 and ERR = 0 (42 R160, 70 R215). -/
def Obligations.BootSequenceYieldsTheHotpCode : Prop :=
  ∀ (s : State) (bytes : List Byte) (c : Nat), s.inv → s.busy = false → s.inReset = false → s.inputs = [] →
    bytes.length ≤ s.cfg.keyRamBytes → c < 2 ^ 64 → s.cfg.cryptoAvailable = true →
    (bytes ≠ [] ∨ s.cfg.rejectEmptyKey = false) →
    ∃ t n u, loadProgram [.ldkey bytes, .ldctr c, .cmd 0x8#4 false, .waitDone] s = .next t ∧ core.run n t = .next u ∧
      u.inputs = [] ∧ u.busy = false ∧ u.done = true ∧ u.err = false ∧
      u.ascii = render (reduce (truncResult (hmacSha1 bytes (bytesBe c 8))))

/-! ## SHA-1 and HMAC -/

/-- The check values of SHA-1 the spec gives (40 R110), and two of two blocks, which chain (40 R105, R109): "a" × 56 and
"a" × 64, S4 and S5 of 95_test_vectors. -/
def Obligations.Sha1CheckValues : Prop :=
  be (sha1 []).toList = 0xda39a3ee5e6b4b0d3255bfef95601890afd80709 ∧
  be (sha1 [0x61#8, 0x62#8, 0x63#8]).toList = 0xa9993e364706816aba3e25717850c26c9cd0d89d ∧
  be (sha1 (List.replicate 56 0x61#8)).toList = 0xc2db330f6083854c99d4b5bfb6e8f29f201be699 ∧
  be (sha1 (List.replicate 64 0x61#8)).toList = 0x0098ba824b5c16427bd7a1122a5a442a25ec644d

/-- The message schedule of a block: 80 words, the first sixteen the block's, each later one the left rotation by one of
W_{t−3} ^ W_{t−8} ^ W_{t−14} ^ W_{t−16} (40 R105, R108, R111). -/
def Obligations.MessageScheduleRecurrence : Prop :=
  ∀ block : List Byte, block.length = 64 →
    (messageSchedule block).length = 80 ∧
    (∀ t < 16, (messageSchedule block).getD t 0 = BitVec.ofNat 32 (be ((block.drop (4 * t)).take 4))) ∧
    ∀ t, 16 ≤ t → t < 80 →
      (messageSchedule block).getD t 0 =
        ((messageSchedule block).getD (t - 3) 0 ^^^ (messageSchedule block).getD (t - 8) 0 ^^^
          (messageSchedule block).getD (t - 14) 0 ^^^ (messageSchedule block).getD (t - 16) 0).rotateLeft 1

/-- The padding: whole blocks, the least number of zero bytes, one block up to 55 bytes and two from 56 to 119
(40 R104). -/
def Obligations.PaddingFillsWholeBlocks : Prop :=
  ∀ m : List Byte,
    ∃ k, shaPad m = m ++ 0x80#8 :: (List.replicate k 0x00#8 ++ bytesBe (8 * m.length) 8) ∧
      (m.length + 1 + k + 8) % 64 = 0 ∧ (∀ k' < k, (m.length + 1 + k' + 8) % 64 ≠ 0) ∧
      (m.length ≤ 55 → (shaPad m).length = 64) ∧ (56 ≤ m.length → m.length ≤ 119 → (shaPad m).length = 128)

/-- The key block is 64 bytes: the key padded with zeros, or, longer than a block, its SHA-1 digest padded; HMAC's two hash
inputs are two blocks each (40 R101, R102, R103). -/
def Obligations.HmacKeyBlockAndInputs : Prop :=
  ∀ (k m : List Byte), m.length = 8 →
    (keyBlock k).length = 64 ∧
    (k.length ≤ 64 → keyBlock k = k ++ List.replicate (64 - k.length) 0x00#8) ∧
    (64 < k.length → keyBlock k = (sha1 k).toList ++ List.replicate 44 0x00#8) ∧
    ∃ inner outer, inner = (keyBlock k).map (· ^^^ 0x36#8) ++ m ∧
      outer = (keyBlock k).map (· ^^^ 0x5C#8) ++ (sha1 inner).toList ∧ hmacSha1 k m = sha1 outer ∧
      (shaPad inner).length = 128 ∧ (shaPad outer).length = 128
end

