-- ==== Sys2Proof/Laws/Bytes.lean ====
section
/-! SUPPORT. Byte strings and words: `be` and `bytes_be` are inverse, and a word's bytes lie in the lanes of 20 R65. -/

namespace Sys2Proof.Machine

theorem be_append (b c : List Byte) : be (b ++ c) = be b * 256 ^ c.length + be c := by
  suffices h : ∀ (c : List Byte) (x : Nat),
      c.foldl (fun acc (b : Byte) => acc * 256 + b.toNat) x =
        x * 256 ^ c.length + c.foldl (fun acc (b : Byte) => acc * 256 + b.toNat) 0 by
    simp only [be, List.foldl_append]
    rw [h]
  intro c
  induction c with
  | nil => simp
  | cons d c ih =>
    intro x
    simp only [List.foldl_cons, List.length_cons]
    rw [ih, ih (0 * 256 + d.toNat)]
    ring

/-- `be(bytes_be(v, n)) = v mod 256^n` (00_scope R12). -/
theorem be_bytesBe (v n : Nat) : be (bytesBe v n) = v % 256 ^ n := by
  induction n generalizing v with
  | zero => simp [bytesBe, be, Nat.mod_one]
  | succ n ih =>
    rw [bytesBe, be_append, ih]
    simp only [List.length_singleton, pow_one, be, List.foldl_cons, List.foldl_nil, Nat.zero_mul, Nat.zero_add,
      BitVec.toNat_ofNat]
    rw [show (256 : Nat) ^ (n + 1) = 256 * 256 ^ n by ring, Nat.mod_mul]
    omega

/-- `be` of a byte string is below 256 to its length. -/
theorem be_lt (b : List Byte) : be b < 256 ^ b.length := by
  induction b using List.reverseRecOn with
  | nil => simp [be]
  | append_singleton b c ih =>
    rw [be_append]
    have hc : be [c] < 256 := by simp only [be, List.foldl_cons, List.foldl_nil]; omega
    simp only [List.length_append, List.length_singleton, pow_succ, pow_zero, Nat.one_mul]
    omega

/-- A byte string is `bytes_be` of its value. -/
theorem bytesBe_be (b : List Byte) : bytesBe (be b) b.length = b := by
  induction b using List.reverseRecOn with
  | nil => rfl
  | append_singleton b c ih =>
    have hc : be [c] = c.toNat := by simp [be]
    rw [be_append, List.length_append, List.length_singleton, bytesBe, hc, pow_one]
    have hd : (be b * 256 + c.toNat) / 256 = be b := by omega
    have hm : BitVec.ofNat 8 (be b * 256 + c.toNat) = c := by
      apply BitVec.eq_of_toNat_eq
      simp only [BitVec.toNat_ofNat]
      omega
    rw [hd, hm, ih]

/-- Byte i of `bytes_be(v, n)` is the byte of weight 256^(n−1−i). -/
theorem bytesBe_getElem (v n i : Nat) (h : i < (bytesBe v n).length) :
    (bytesBe v n)[i] = BitVec.ofNat 8 (v / 256 ^ (n - 1 - i)) := by
  induction n generalizing v i with
  | zero => simp at h
  | succ n ih =>
    simp only [bytesBe, List.getElem_append, bytesBe_length]
    split
    · rename_i hi
      rw [ih, Nat.div_div_eq_div_mul, ← pow_succ']
      congr 3
      omega
    · simp at h
      have : i = n := by simp_all; omega
      subst this
      simp

/-- The word that holds four bytes has bit `8j + k` from byte `3 − j`. -/
theorem append4_getLsbD (a b c d : Byte) (i : Nat) :
    (a ++ b ++ c ++ d).getLsbD i =
      if i < 8 then d.getLsbD i else if i < 16 then c.getLsbD (i - 8) else if i < 24 then b.getLsbD (i - 16)
        else a.getLsbD (i - 24) := by
  simp only [BitVec.getLsbD_append, Nat.sub_sub]
  split_ifs <;> first | rfl | omega

/-- The bytes of a word put together of four are those four, in order (20 R65). -/
theorem wordByte_of_bytes (a b c d : Byte) :
    wordByte (a ++ b ++ c ++ d) 0 = a ∧ wordByte (a ++ b ++ c ++ d) 1 = b ∧ wordByte (a ++ b ++ c ++ d) 2 = c ∧
      wordByte (a ++ b ++ c ++ d) 3 = d := by
  refine ⟨?_, ?_, ?_, ?_⟩ <;>
    (apply BitVec.eq_of_getLsbD_eq
     intro i hi
     unfold wordByte
     rw [BitVec.getLsbD_extractLsb', append4_getLsbD]
     interval_cases i <;> rfl)

/-- The four bytes of a word put together are the word (20 R65). -/
@[simp] theorem wordByte_append (v : Word) :
    wordByte v 0 ++ wordByte v 1 ++ wordByte v 2 ++ wordByte v 3 = v := by
  apply BitVec.eq_of_getLsbD_eq
  intro i hi
  rw [append4_getLsbD]
  simp only [wordByte, BitVec.getLsbD_extractLsb']
  split_ifs
  · simp; omega
  · rw [show 24 - 8 * 2 + (i - 8) = i by omega]; simp; omega
  · rw [show 24 - 8 * 1 + (i - 16) = i by omega]; simp; omega
  · rw [show 24 - 8 * 0 + (i - 24) = i by omega]; simp; omega

/-- The high half is the number divided by 2^32 (10 R30). -/
theorem hi32_toNat (x : BitVec 64) : (hi32 x).toNat = x.toNat / 2 ^ 32 := by
  simp [hi32, BitVec.extractLsb'_toNat, Nat.shiftRight_eq_div_pow]
  omega

/-- The low half is the number modulo 2^32 (10 R30). -/
theorem lo32_toNat (x : BitVec 64) : (lo32 x).toNat = x.toNat % 2 ^ 32 := by
  simp [lo32, BitVec.extractLsb'_toNat]

/-- Two halves put together. -/
theorem append_toNat (v w : Word) : (v ++ w).toNat = v.toNat * 2 ^ 32 + w.toNat := by
  rw [BitVec.toNat_append, ← Nat.shiftLeft_add_eq_or_of_lt w.isLt, Nat.shiftLeft_eq]

@[simp] theorem hi32_setHi32 (x : BitVec 64) (v : Word) : hi32 (setHi32 x v) = v := by
  apply BitVec.eq_of_toNat_eq
  rw [hi32_toNat, setHi32, append_toNat]
  omega

@[simp] theorem lo32_setHi32 (x : BitVec 64) (v : Word) : lo32 (setHi32 x v) = lo32 x := by
  apply BitVec.eq_of_toNat_eq
  rw [lo32_toNat, setHi32, append_toNat]
  omega

@[simp] theorem hi32_setLo32 (x : BitVec 64) (v : Word) : hi32 (setLo32 x v) = hi32 x := by
  apply BitVec.eq_of_toNat_eq
  rw [hi32_toNat, setLo32, append_toNat]
  omega

@[simp] theorem lo32_setLo32 (x : BitVec 64) (v : Word) : lo32 (setLo32 x v) = v := by
  apply BitVec.eq_of_toNat_eq
  rw [lo32_toNat, setLo32, append_toNat]
  omega

/-- A number written as its two halves is that number, whatever was there before (70 R224). -/
theorem setLo32_setHi32 (x y : BitVec 64) : setLo32 (setHi32 x (hi32 y)) (lo32 y) = y := by
  apply BitVec.eq_of_toNat_eq
  rw [setLo32, append_toNat, hi32_setHi32, hi32_toNat, lo32_toNat]
  omega

/-- Four bytes put together are `be` of them (20 R65). -/
theorem append4_toNat (a b c d : Byte) : (a ++ b ++ c ++ d).toNat = be [a, b, c, d] := by
  have hb := b.isLt
  have hc := c.isLt
  have hd := d.isLt
  simp only [BitVec.toNat_append, be, List.foldl]
  rw [← Nat.shiftLeft_add_eq_or_of_lt hb, ← Nat.shiftLeft_add_eq_or_of_lt hc, ← Nat.shiftLeft_add_eq_or_of_lt hd]
  simp only [Nat.shiftLeft_eq]
  omega

/-- A register that holds bytes 4k to 4k+3 of a string reads `be` of them (20 R65). -/
theorem wordOfBytes_toNat {n : Nat} (bytes : Vector Byte n) (k : Nat) (h : 4 * k + 3 < n) :
    (wordOfBytes bytes k h).toNat = be ((bytes.toList.drop (4 * k)).take 4) := by
  rw [wordOfBytes, append4_toNat]
  congr 1
  apply List.ext_getElem
  · simp
    omega
  · intro i h1 _
    simp at h1
    interval_cases i <;> simp

/-- A word written to a byte string reads back, and the other words are unchanged (10 R32, R33). -/
@[simp] theorem wordOfBytes_setWordOfBytes {n : Nat} (bytes : Vector Byte n) (k k' : Nat) (h : 4 * k + 3 < n)
    (h' : 4 * k' + 3 < n) (v : Word) :
    wordOfBytes (setWordOfBytes bytes k h v) k' h' = if k' = k then v else wordOfBytes bytes k' h' := by
  unfold wordOfBytes setWordOfBytes
  split
  · subst k'
    simp
  · rename_i hk
    have apart : ∀ a c : Nat, a < 4 → c < 4 → (4 * k + a = 4 * k' + c) = False := by
      intro a c ha hc
      simp only [eq_iff_iff, iff_false]
      omega
    have apartL : ∀ c : Nat, c < 4 → (4 * k = 4 * k' + c) = False := fun c hc => apart 0 c (by omega) hc
    have apartR : ∀ a : Nat, a < 4 → (4 * k + a = 4 * k') = False := fun a ha => apart a 0 ha (by omega)
    have hk' : ¬k = k' := fun e => hk e.symm
    simp [apart, apartL, apartR, hk']

end Sys2Proof.Machine
end

