-- ==== Sys2Proof/Laws/Decode.lean ====
section
/-! SUPPORT. The command word's fields, and the register map's two views. -/

namespace Sys2Proof

@[simp] theorem ctrlSrst_ctrlFields (start : Bool) (op : BitVec 4) (irqEn : Bool) :
    ctrlSrst (ctrlFields start op irqEn) = false := by
  cases start <;> cases irqEn <;> revert op <;> decide

@[simp] theorem ctrlStart_ctrlFields (start : Bool) (op : BitVec 4) (irqEn : Bool) :
    ctrlStart (ctrlFields start op irqEn) = start := by
  cases start <;> cases irqEn <;> revert op <;> decide

@[simp] theorem ctrlIrqEn_ctrlFields (start : Bool) (op : BitVec 4) (irqEn : Bool) :
    ctrlIrqEn (ctrlFields start op irqEn) = irqEn := by
  cases start <;> cases irqEn <;> revert op <;> decide

@[simp] theorem ctrlOp_ctrlFields (start : Bool) (op : BitVec 4) (irqEn : Bool) :
    ctrlOp (ctrlFields start op irqEn) = op := by
  cases start <;> cases irqEn <;> revert op <;> decide

/-- The register map (10 R22) lists every register at its offset. -/
@[simp] theorem regMap_lookup_offsetOf (r : Reg) : regMap.lookup r.offsetOf = some r := by
  cases r with
  | digest i => revert i; decide
  | _ => rfl

/-- A register found in the map lies at its offset. -/
theorem offsetOf_of_lookup {off : Nat} {r : Reg} (h : regMap.lookup off = some r) : r.offsetOf = off := by
  simp only [regMap, List.lookup_cons, List.lookup_nil] at h
  repeat' split at h
  all_goals first
    | (simp only [Option.some.injEq] at h; subst h; rename_i h0; simp only [beq_iff_eq] at h0; subst h0; rfl)
    | cases h

/-- An aligned offset of a register decodes to it (20 R61). -/
@[simp] theorem busDecode_reg (c : Config) (r : Reg) : busDecode c r.offsetOf 0xF#4 = .ok (.reg r) := by
  have h4 : r.offsetOf % 4 = 0 := by
    cases r with
    | digest i => simp only [Reg.offsetOf]; omega
    | _ => rfl
  simp [busDecode, targetAt, h4]

theorem offsetOf_le (r : Reg) : r.offsetOf ≤ 0x054 := by
  cases r with
  | digest i => simp only [Reg.offsetOf]; omega
  | _ => decide

/-- No register lies in the key window. -/
theorem lookup_keyWindow {off : Nat} (h : keyWindow ≤ off) : regMap.lookup off = none := by
  cases hl : regMap.lookup off with
  | none => rfl
  | some r =>
    have h1 := offsetOf_of_lookup hl
    have h2 := offsetOf_le r
    simp only [keyWindow] at h
    omega

/-- The offset of word j of the key RAM decodes to it (10 R39). -/
theorem busDecode_keyWord {c : Config} {j : Nat} (h : 4 * j < c.keyRamBytes) :
    busDecode c (keyWindow + 4 * j) 0xF#4 = .ok (.keyWord j) := by
  have h4 : (keyWindow + 4 * j) % 4 = 0 := by simp only [keyWindow]; omega
  simp only [busDecode, targetAt, h4, lookup_keyWindow (Nat.le_add_right _ _)]
  simp [h]

/-- What a mapped transaction's offset is (20 R61). -/
theorem busDecode_ok {c : Config} {off : Nat} {lanes : BitVec 4} {t : Target} (h : busDecode c off lanes = .ok t) :
    lanes = 0xF#4 ∧ off % 4 = 0 ∧
      ((∃ r, t = .reg r ∧ off = r.offsetOf) ∨
        (∃ j, t = .keyWord j ∧ off = keyWindow + 4 * j ∧ 4 * j < c.keyRamBytes)) := by
  simp only [busDecode] at h
  split at h
  · cases h
  · split at h
    · cases h
    · rename_i h4 hl
      refine ⟨by simpa using hl, by omega, ?_⟩
      simp only [targetAt] at h
      split at h
      · rename_i t' ht
        cases h
        split at ht
        · rename_i r hr
          cases ht
          exact .inl ⟨r, rfl, (offsetOf_of_lookup hr).symm⟩
        · split at ht
          · cases ht
            refine .inr ⟨_, rfl, ?_, ?_⟩ <;> simp only [keyWindow] at * <;> omega
          · cases ht
      · cases h

/-- The platform's decode of an address made from an offset (20 R61). -/
@[simp] theorem windowOffset_add {c : Config} {off : Nat} (h : off < windowBytes) :
    windowOffset c (c.base + off) = some off := by
  simp [windowOffset, h]

end Sys2Proof
end

