-- ==== Sys2Proof/Laws/Memory.lean ====
section
/-! SUPPORT. The key RAM: a read after a write, and that every operation keeps the canonical form. -/

namespace Sys2Proof.Machine

/-- Every entry's index is above `a`. -/
def Memory.above (m : Memory) (a : Nat) : Prop := ∀ c ∈ m, a < c.1

theorem memory_read_above {m : Memory} {a : Nat} (h : m.above a) : m.read a = Memory.unlisted := by
  induction m with
  | nil => rfl
  | cons c rest ih =>
    have hc : a < c.1 := h c (by simp)
    obtain ⟨a', b'⟩ := c
    simp only [Memory.read, if_neg (show ¬a = a' by simp at hc; omega)]
    exact ih fun d hd => h d (by simp [hd])

theorem memory_wf_tail {c : Host.Cell} {rest : Memory} (h : Memory.wf (c :: rest)) :
    Memory.wf rest ∧ Memory.above rest c.1 := by
  obtain ⟨hp, hn⟩ := h
  rw [List.pairwise_cons] at hp
  exact ⟨⟨hp.2, fun d hd => hn d (by simp [hd])⟩, hp.1⟩

theorem memory_wf_cons {c : Host.Cell} {rest : Memory} (h : Memory.wf rest) (ha : Memory.above rest c.1)
    (hc : c.2 ≠ Memory.unlisted) : Memory.wf (c :: rest) := by
  refine ⟨List.pairwise_cons.2 ⟨ha, h.1⟩, fun d hd => ?_⟩
  rcases List.mem_cons.1 hd with rfl | hd
  · exact hc
  · exact h.2 d hd

/-- The entries after a write: the written one or old ones. -/
theorem memory_mem_write {m : Memory} {a : Nat} {b : Byte} {c : Host.Cell} (h : c ∈ m.write a b) :
    c = (a, b) ∨ c ∈ m := by
  induction m with
  | nil =>
    simp only [Memory.write] at h
    split at h <;> simp_all
  | cons d rest ih =>
    obtain ⟨a', b'⟩ := d
    simp only [Memory.write] at h
    split at h
    · split at h
      · exact .inr h
      · rcases List.mem_cons.1 h with rfl | h
        · exact .inl rfl
        · exact .inr h
    · split at h
      · split at h
        · exact .inr (by simp [h])
        · rcases List.mem_cons.1 h with rfl | h
          · exact .inl rfl
          · exact .inr (by simp [h])
      · rcases List.mem_cons.1 h with rfl | h
        · exact .inr (by simp)
        · rcases ih h with h | h
          · exact .inl h
          · exact .inr (by simp [h])

/-- A write keeps the canonical form. -/
theorem memory_write_wf {m : Memory} (h : m.wf) (a : Nat) (b : Byte) : (m.write a b).wf := by
  induction m with
  | nil =>
    simp only [Memory.write]
    split
    · exact ⟨List.Pairwise.nil, by simp⟩
    · exact memory_wf_cons ⟨List.Pairwise.nil, by simp⟩ (by simp [Memory.above]) ‹_›
  | cons d rest ih =>
    obtain ⟨a', b'⟩ := d
    obtain ⟨hr, ha⟩ := memory_wf_tail h
    have hb' : b' ≠ Memory.unlisted := h.2 (a', b') (by simp)
    simp only [Memory.write]
    split
    · split
      · exact h
      · refine memory_wf_cons h (fun c hc => ?_) ‹_›
        rcases List.mem_cons.1 hc with rfl | hc
        · assumption
        · exact Nat.lt_trans ‹a < a'› (ha c hc)
    · split
      · split
        · exact hr
        · subst a
          exact memory_wf_cons hr ha ‹_›
      · refine memory_wf_cons (ih hr) (fun c hc => ?_) hb'
        rcases memory_mem_write hc with rfl | hc
        · show a' < a
          omega
        · exact ha c hc

/-- A read of the written index gives the byte written. -/
@[simp] theorem memory_read_write_same {m : Memory} (h : m.wf) (a : Nat) (b : Byte) : (m.write a b).read a = b := by
  induction m with
  | nil =>
    simp only [Memory.write]
    split
    · simp [Memory.read, *]
    · simp [Memory.read]
  | cons d rest ih =>
    obtain ⟨a', b'⟩ := d
    obtain ⟨hr, ha⟩ := memory_wf_tail h
    simp only [Memory.write]
    split
    · split
      · rename_i hlt hb
        rw [hb]
        refine memory_read_above fun c hc => ?_
        rcases List.mem_cons.1 hc with rfl | hc
        · assumption
        · exact Nat.lt_trans hlt (ha c hc)
      · simp [Memory.read]
    · split
      · split
        · rename_i heq hb
          rw [hb]
          exact memory_read_above (by rw [heq]; exact ha)
        · simp [Memory.read]
      · simp only [Memory.read, if_neg ‹¬a = a'›]
        exact ih hr

/-- A write leaves every other index alone. -/
theorem memory_read_write_other (m : Memory) {a x : Nat} (b : Byte) (hx : x ≠ a) : (m.write a b).read x = m.read x := by
  induction m with
  | nil =>
    simp only [Memory.write]
    split <;> simp [Memory.read, hx]
  | cons d rest ih =>
    obtain ⟨a', b'⟩ := d
    simp only [Memory.write]
    split
    · split <;> simp [Memory.read, hx]
    · split
      · subst a
        split <;> simp [Memory.read, hx]
      · simp only [Memory.read, ih]

/-- Indices stay below a bound the written index is below. -/
theorem memory_write_bound {m : Memory} {n : Nat} (h : ∀ c ∈ m, c.1 < n) {a : Nat} (ha : a < n) (b : Byte) :
    ∀ c ∈ m.write a b, c.1 < n := fun c hc => by
  rcases memory_mem_write hc with rfl | hc
  · exact ha
  · exact h c hc

/-- A word write keeps the canonical form. -/
theorem memory_writeWord_wf {m : Memory} (h : m.wf) (j : Nat) (v : Word) : (m.writeWord j v).wf :=
  memory_write_wf (memory_write_wf (memory_write_wf (memory_write_wf h _ _) _ _) _ _) _ _

/-- A word write stores the word's four bytes, the first in bits 31:24, and leaves every other byte alone. -/
theorem memory_read_writeWord {m : Memory} (h : m.wf) (j : Nat) (v : Word) (a : Nat) :
    (m.writeWord j v).read a = if a / 4 = j then wordByte v (a % 4) else m.read a := by
  have h0 := memory_write_wf h (4 * j) (wordByte v 0)
  have h1 := memory_write_wf h0 (4 * j + 1) (wordByte v 1)
  have h2 := memory_write_wf h1 (4 * j + 2) (wordByte v 2)
  unfold Memory.writeWord
  by_cases hj : a / 4 = j
  · rw [if_pos hj]
    have hm : a % 4 = 0 ∨ a % 4 = 1 ∨ a % 4 = 2 ∨ a % 4 = 3 := by omega
    rcases hm with e | e | e | e
    · obtain rfl : a = 4 * j := by omega
      rw [memory_read_write_other _ _ (by omega), memory_read_write_other _ _ (by omega),
        memory_read_write_other _ _ (by omega), memory_read_write_same h, e]
    · obtain rfl : a = 4 * j + 1 := by omega
      rw [memory_read_write_other _ _ (by omega), memory_read_write_other _ _ (by omega),
        memory_read_write_same h0, e]
    · obtain rfl : a = 4 * j + 2 := by omega
      rw [memory_read_write_other _ _ (by omega), memory_read_write_same h1, e]
    · obtain rfl : a = 4 * j + 3 := by omega
      rw [memory_read_write_same h2, e]
  · rw [if_neg hj, memory_read_write_other _ _ (by omega), memory_read_write_other _ _ (by omega),
      memory_read_write_other _ _ (by omega), memory_read_write_other _ _ (by omega)]

/-- Indices stay below a bound the whole written word is below. -/
theorem memory_writeWord_bound {m : Memory} {n : Nat} (h : ∀ c ∈ m, c.1 < n) {j : Nat} (hj : 4 * j + 3 < n) (v : Word) :
    ∀ c ∈ m.writeWord j v, c.1 < n :=
  memory_write_bound (memory_write_bound (memory_write_bound (memory_write_bound h (by omega) _) (by omega) _)
    (by omega) _) hj _

end Sys2Proof.Machine
end

