-- ==== Sys2Proof/Laws/State.lean ====
section
/-! SUPPORT. The fields after each named update: one lemma per field per update, true by `rfl`, so that no proof unfolds
a record update. -/

namespace Sys2Proof.Machine

/-! `accept` -/

@[simp] theorem accept_key (op : BitVec 4) (irqEn : Bool) (s : State) : (accept op irqEn s).key = s.key := rfl
@[simp] theorem accept_keyLen (op : BitVec 4) (irqEn : Bool) (s : State) : (accept op irqEn s).keyLen = s.keyLen := rfl
@[simp] theorem accept_counter (op : BitVec 4) (irqEn : Bool) (s : State) : (accept op irqEn s).counter = s.counter := rfl
@[simp] theorem accept_time (op : BitVec 4) (irqEn : Bool) (s : State) : (accept op irqEn s).time = s.time := rfl
@[simp] theorem accept_msg (op : BitVec 4) (irqEn : Bool) (s : State) : (accept op irqEn s).msg = s.msg := rfl
@[simp] theorem accept_digest (op : BitVec 4) (irqEn : Bool) (s : State) : (accept op irqEn s).digest = s.digest := rfl
@[simp] theorem accept_offset (op : BitVec 4) (irqEn : Bool) (s : State) : (accept op irqEn s).offset = s.offset := rfl
@[simp] theorem accept_trunc (op : BitVec 4) (irqEn : Bool) (s : State) : (accept op irqEn s).trunc = s.trunc := rfl
@[simp] theorem accept_code (op : BitVec 4) (irqEn : Bool) (s : State) : (accept op irqEn s).code = s.code := rfl
@[simp] theorem accept_ascii (op : BitVec 4) (irqEn : Bool) (s : State) : (accept op irqEn s).ascii = s.ascii := rfl
@[simp] theorem accept_op (op : BitVec 4) (irqEn : Bool) (s : State) : (accept op irqEn s).op = op := rfl
@[simp] theorem accept_irqEn (op : BitVec 4) (irqEn : Bool) (s : State) : (accept op irqEn s).irqEn = irqEn := rfl
@[simp] theorem accept_busy (op : BitVec 4) (irqEn : Bool) (s : State) : (accept op irqEn s).busy = true := rfl
@[simp] theorem accept_pending (op : BitVec 4) (irqEn : Bool) (s : State) : (accept op irqEn s).pending = op := rfl
@[simp] theorem accept_done (op : BitVec 4) (irqEn : Bool) (s : State) : (accept op irqEn s).done = false := rfl
@[simp] theorem accept_err (op : BitVec 4) (irqEn : Bool) (s : State) : (accept op irqEn s).err = false := rfl
@[simp] theorem accept_errcode (op : BitVec 4) (irqEn : Bool) (s : State) : (accept op irqEn s).errcode = 0 := rfl
@[simp] theorem accept_ovr (op : BitVec 4) (irqEn : Bool) (s : State) : (accept op irqEn s).ovr = s.ovr := rfl
@[simp] theorem accept_cfg (op : BitVec 4) (irqEn : Bool) (s : State) : (accept op irqEn s).cfg = s.cfg := rfl
@[simp] theorem accept_inputs (op : BitVec 4) (irqEn : Bool) (s : State) : (accept op irqEn s).inputs = s.inputs := rfl
@[simp] theorem accept_reply (op : BitVec 4) (irqEn : Bool) (s : State) : (accept op irqEn s).reply = s.reply := rfl
@[simp] theorem accept_inReset (op : BitVec 4) (irqEn : Bool) (s : State) : (accept op irqEn s).inReset = s.inReset := rfl

/-! `dropWrite` -/

@[simp] theorem dropWrite_key (s : State) : (dropWrite s).key = s.key := rfl
@[simp] theorem dropWrite_keyLen (s : State) : (dropWrite s).keyLen = s.keyLen := rfl
@[simp] theorem dropWrite_counter (s : State) : (dropWrite s).counter = s.counter := rfl
@[simp] theorem dropWrite_time (s : State) : (dropWrite s).time = s.time := rfl
@[simp] theorem dropWrite_msg (s : State) : (dropWrite s).msg = s.msg := rfl
@[simp] theorem dropWrite_digest (s : State) : (dropWrite s).digest = s.digest := rfl
@[simp] theorem dropWrite_offset (s : State) : (dropWrite s).offset = s.offset := rfl
@[simp] theorem dropWrite_trunc (s : State) : (dropWrite s).trunc = s.trunc := rfl
@[simp] theorem dropWrite_code (s : State) : (dropWrite s).code = s.code := rfl
@[simp] theorem dropWrite_ascii (s : State) : (dropWrite s).ascii = s.ascii := rfl
@[simp] theorem dropWrite_op (s : State) : (dropWrite s).op = s.op := rfl
@[simp] theorem dropWrite_irqEn (s : State) : (dropWrite s).irqEn = s.irqEn := rfl
@[simp] theorem dropWrite_busy (s : State) : (dropWrite s).busy = s.busy := rfl
@[simp] theorem dropWrite_pending (s : State) : (dropWrite s).pending = s.pending := rfl
@[simp] theorem dropWrite_done (s : State) : (dropWrite s).done = s.done := rfl
@[simp] theorem dropWrite_err (s : State) : (dropWrite s).err = s.err := rfl
@[simp] theorem dropWrite_errcode (s : State) : (dropWrite s).errcode = s.errcode := rfl
@[simp] theorem dropWrite_ovr (s : State) : (dropWrite s).ovr = true := rfl
@[simp] theorem dropWrite_cfg (s : State) : (dropWrite s).cfg = s.cfg := rfl
@[simp] theorem dropWrite_inputs (s : State) : (dropWrite s).inputs = s.inputs := rfl
@[simp] theorem dropWrite_reply (s : State) : (dropWrite s).reply = s.reply := rfl
@[simp] theorem dropWrite_inReset (s : State) : (dropWrite s).inReset = s.inReset := rfl

/-! `configure` -/

@[simp] theorem configure_key (irqEn : Bool) (op : BitVec 4) (s : State) : (configure irqEn op s).key = s.key := rfl
@[simp] theorem configure_keyLen (irqEn : Bool) (op : BitVec 4) (s : State) : (configure irqEn op s).keyLen = s.keyLen := rfl
@[simp] theorem configure_counter (irqEn : Bool) (op : BitVec 4) (s : State) : (configure irqEn op s).counter = s.counter := rfl
@[simp] theorem configure_time (irqEn : Bool) (op : BitVec 4) (s : State) : (configure irqEn op s).time = s.time := rfl
@[simp] theorem configure_msg (irqEn : Bool) (op : BitVec 4) (s : State) : (configure irqEn op s).msg = s.msg := rfl
@[simp] theorem configure_digest (irqEn : Bool) (op : BitVec 4) (s : State) : (configure irqEn op s).digest = s.digest := rfl
@[simp] theorem configure_offset (irqEn : Bool) (op : BitVec 4) (s : State) : (configure irqEn op s).offset = s.offset := rfl
@[simp] theorem configure_trunc (irqEn : Bool) (op : BitVec 4) (s : State) : (configure irqEn op s).trunc = s.trunc := rfl
@[simp] theorem configure_code (irqEn : Bool) (op : BitVec 4) (s : State) : (configure irqEn op s).code = s.code := rfl
@[simp] theorem configure_ascii (irqEn : Bool) (op : BitVec 4) (s : State) : (configure irqEn op s).ascii = s.ascii := rfl
@[simp] theorem configure_op (irqEn : Bool) (op : BitVec 4) (s : State) : (configure irqEn op s).op = op := rfl
@[simp] theorem configure_irqEn (irqEn : Bool) (op : BitVec 4) (s : State) : (configure irqEn op s).irqEn = irqEn := rfl
@[simp] theorem configure_busy (irqEn : Bool) (op : BitVec 4) (s : State) : (configure irqEn op s).busy = s.busy := rfl
@[simp] theorem configure_pending (irqEn : Bool) (op : BitVec 4) (s : State) : (configure irqEn op s).pending = s.pending := rfl
@[simp] theorem configure_done (irqEn : Bool) (op : BitVec 4) (s : State) : (configure irqEn op s).done = s.done := rfl
@[simp] theorem configure_err (irqEn : Bool) (op : BitVec 4) (s : State) : (configure irqEn op s).err = s.err := rfl
@[simp] theorem configure_errcode (irqEn : Bool) (op : BitVec 4) (s : State) : (configure irqEn op s).errcode = s.errcode := rfl
@[simp] theorem configure_ovr (irqEn : Bool) (op : BitVec 4) (s : State) : (configure irqEn op s).ovr = s.ovr := rfl
@[simp] theorem configure_cfg (irqEn : Bool) (op : BitVec 4) (s : State) : (configure irqEn op s).cfg = s.cfg := rfl
@[simp] theorem configure_inputs (irqEn : Bool) (op : BitVec 4) (s : State) : (configure irqEn op s).inputs = s.inputs := rfl
@[simp] theorem configure_reply (irqEn : Bool) (op : BitVec 4) (s : State) : (configure irqEn op s).reply = s.reply := rfl
@[simp] theorem configure_inReset (irqEn : Bool) (op : BitVec 4) (s : State) : (configure irqEn op s).inReset = s.inReset := rfl

/-! `succeed` -/

@[simp] theorem succeed_key (s : State) : (succeed s).key = s.key := rfl
@[simp] theorem succeed_keyLen (s : State) : (succeed s).keyLen = s.keyLen := rfl
@[simp] theorem succeed_counter (s : State) : (succeed s).counter = s.counter := rfl
@[simp] theorem succeed_time (s : State) : (succeed s).time = s.time := rfl
@[simp] theorem succeed_msg (s : State) : (succeed s).msg = s.msg := rfl
@[simp] theorem succeed_digest (s : State) : (succeed s).digest = s.digest := rfl
@[simp] theorem succeed_offset (s : State) : (succeed s).offset = s.offset := rfl
@[simp] theorem succeed_trunc (s : State) : (succeed s).trunc = s.trunc := rfl
@[simp] theorem succeed_code (s : State) : (succeed s).code = s.code := rfl
@[simp] theorem succeed_ascii (s : State) : (succeed s).ascii = s.ascii := rfl
@[simp] theorem succeed_op (s : State) : (succeed s).op = s.op := rfl
@[simp] theorem succeed_irqEn (s : State) : (succeed s).irqEn = s.irqEn := rfl
@[simp] theorem succeed_busy (s : State) : (succeed s).busy = false := rfl
@[simp] theorem succeed_pending (s : State) : (succeed s).pending = s.pending := rfl
@[simp] theorem succeed_done (s : State) : (succeed s).done = true := rfl
@[simp] theorem succeed_err (s : State) : (succeed s).err = false := rfl
@[simp] theorem succeed_errcode (s : State) : (succeed s).errcode = 0 := rfl
@[simp] theorem succeed_ovr (s : State) : (succeed s).ovr = s.ovr := rfl
@[simp] theorem succeed_cfg (s : State) : (succeed s).cfg = s.cfg := rfl
@[simp] theorem succeed_inputs (s : State) : (succeed s).inputs = s.inputs := rfl
@[simp] theorem succeed_reply (s : State) : (succeed s).reply = s.reply := rfl
@[simp] theorem succeed_inReset (s : State) : (succeed s).inReset = s.inReset := rfl

/-! `clearOutputs` -/

@[simp] theorem clearOutputs_key (s : State) : (clearOutputs s).key = s.key := rfl
@[simp] theorem clearOutputs_keyLen (s : State) : (clearOutputs s).keyLen = s.keyLen := rfl
@[simp] theorem clearOutputs_counter (s : State) : (clearOutputs s).counter = s.counter := rfl
@[simp] theorem clearOutputs_time (s : State) : (clearOutputs s).time = s.time := rfl
@[simp] theorem clearOutputs_msg (s : State) : (clearOutputs s).msg = s.msg := rfl
@[simp] theorem clearOutputs_digest (s : State) : (clearOutputs s).digest = Vector.replicate 20 0 := rfl
@[simp] theorem clearOutputs_offset (s : State) : (clearOutputs s).offset = 0 := rfl
@[simp] theorem clearOutputs_trunc (s : State) : (clearOutputs s).trunc = 0 := rfl
@[simp] theorem clearOutputs_code (s : State) : (clearOutputs s).code = 0 := rfl
@[simp] theorem clearOutputs_ascii (s : State) : (clearOutputs s).ascii = Vector.replicate 6 0 := rfl
@[simp] theorem clearOutputs_op (s : State) : (clearOutputs s).op = s.op := rfl
@[simp] theorem clearOutputs_irqEn (s : State) : (clearOutputs s).irqEn = s.irqEn := rfl
@[simp] theorem clearOutputs_busy (s : State) : (clearOutputs s).busy = s.busy := rfl
@[simp] theorem clearOutputs_pending (s : State) : (clearOutputs s).pending = s.pending := rfl
@[simp] theorem clearOutputs_done (s : State) : (clearOutputs s).done = s.done := rfl
@[simp] theorem clearOutputs_err (s : State) : (clearOutputs s).err = s.err := rfl
@[simp] theorem clearOutputs_errcode (s : State) : (clearOutputs s).errcode = s.errcode := rfl
@[simp] theorem clearOutputs_ovr (s : State) : (clearOutputs s).ovr = s.ovr := rfl
@[simp] theorem clearOutputs_cfg (s : State) : (clearOutputs s).cfg = s.cfg := rfl
@[simp] theorem clearOutputs_inputs (s : State) : (clearOutputs s).inputs = s.inputs := rfl
@[simp] theorem clearOutputs_reply (s : State) : (clearOutputs s).reply = s.reply := rfl
@[simp] theorem clearOutputs_inReset (s : State) : (clearOutputs s).inReset = s.inReset := rfl

/-! `failWith` -/

@[simp] theorem failWith_key (c : BitVec 4) (s : State) : (failWith c s).key = s.key := rfl
@[simp] theorem failWith_keyLen (c : BitVec 4) (s : State) : (failWith c s).keyLen = s.keyLen := rfl
@[simp] theorem failWith_counter (c : BitVec 4) (s : State) : (failWith c s).counter = s.counter := rfl
@[simp] theorem failWith_time (c : BitVec 4) (s : State) : (failWith c s).time = s.time := rfl
@[simp] theorem failWith_msg (c : BitVec 4) (s : State) : (failWith c s).msg = s.msg := rfl
@[simp] theorem failWith_digest (c : BitVec 4) (s : State) : (failWith c s).digest = s.digest := rfl
@[simp] theorem failWith_offset (c : BitVec 4) (s : State) : (failWith c s).offset = s.offset := rfl
@[simp] theorem failWith_trunc (c : BitVec 4) (s : State) : (failWith c s).trunc = s.trunc := rfl
@[simp] theorem failWith_code (c : BitVec 4) (s : State) : (failWith c s).code = s.code := rfl
@[simp] theorem failWith_ascii (c : BitVec 4) (s : State) : (failWith c s).ascii = s.ascii := rfl
@[simp] theorem failWith_op (c : BitVec 4) (s : State) : (failWith c s).op = s.op := rfl
@[simp] theorem failWith_irqEn (c : BitVec 4) (s : State) : (failWith c s).irqEn = s.irqEn := rfl
@[simp] theorem failWith_busy (c : BitVec 4) (s : State) : (failWith c s).busy = false := rfl
@[simp] theorem failWith_pending (c : BitVec 4) (s : State) : (failWith c s).pending = s.pending := rfl
@[simp] theorem failWith_done (c : BitVec 4) (s : State) : (failWith c s).done = true := rfl
@[simp] theorem failWith_err (c : BitVec 4) (s : State) : (failWith c s).err = true := rfl
@[simp] theorem failWith_errcode (c : BitVec 4) (s : State) : (failWith c s).errcode = c := rfl
@[simp] theorem failWith_ovr (c : BitVec 4) (s : State) : (failWith c s).ovr = s.ovr := rfl
@[simp] theorem failWith_cfg (c : BitVec 4) (s : State) : (failWith c s).cfg = s.cfg := rfl
@[simp] theorem failWith_inputs (c : BitVec 4) (s : State) : (failWith c s).inputs = s.inputs := rfl
@[simp] theorem failWith_reply (c : BitVec 4) (s : State) : (failWith c s).reply = s.reply := rfl
@[simp] theorem failWith_inReset (c : BitVec 4) (s : State) : (failWith c s).inReset = s.inReset := rfl

/-! `acknowledge` -/

@[simp] theorem acknowledge_key (v : Word) (s : State) : (acknowledge v s).key = s.key := rfl
@[simp] theorem acknowledge_keyLen (v : Word) (s : State) : (acknowledge v s).keyLen = s.keyLen := rfl
@[simp] theorem acknowledge_counter (v : Word) (s : State) : (acknowledge v s).counter = s.counter := rfl
@[simp] theorem acknowledge_time (v : Word) (s : State) : (acknowledge v s).time = s.time := rfl
@[simp] theorem acknowledge_msg (v : Word) (s : State) : (acknowledge v s).msg = s.msg := rfl
@[simp] theorem acknowledge_digest (v : Word) (s : State) : (acknowledge v s).digest = s.digest := rfl
@[simp] theorem acknowledge_offset (v : Word) (s : State) : (acknowledge v s).offset = s.offset := rfl
@[simp] theorem acknowledge_trunc (v : Word) (s : State) : (acknowledge v s).trunc = s.trunc := rfl
@[simp] theorem acknowledge_code (v : Word) (s : State) : (acknowledge v s).code = s.code := rfl
@[simp] theorem acknowledge_ascii (v : Word) (s : State) : (acknowledge v s).ascii = s.ascii := rfl
@[simp] theorem acknowledge_op (v : Word) (s : State) : (acknowledge v s).op = s.op := rfl
@[simp] theorem acknowledge_irqEn (v : Word) (s : State) : (acknowledge v s).irqEn = s.irqEn := rfl
@[simp] theorem acknowledge_busy (v : Word) (s : State) : (acknowledge v s).busy = s.busy := rfl
@[simp] theorem acknowledge_pending (v : Word) (s : State) : (acknowledge v s).pending = s.pending := rfl
@[simp] theorem acknowledge_done (v : Word) (s : State) : (acknowledge v s).done = (s.done && !v.getLsbD 1) := rfl
@[simp] theorem acknowledge_err (v : Word) (s : State) : (acknowledge v s).err = (s.err && !v.getLsbD 2) := rfl
@[simp] theorem acknowledge_errcode (v : Word) (s : State) : (acknowledge v s).errcode = (if v.getLsbD 2 then 0 else s.errcode) := rfl
@[simp] theorem acknowledge_ovr (v : Word) (s : State) : (acknowledge v s).ovr = (s.ovr && !v.getLsbD 8) := rfl
@[simp] theorem acknowledge_cfg (v : Word) (s : State) : (acknowledge v s).cfg = s.cfg := rfl
@[simp] theorem acknowledge_inputs (v : Word) (s : State) : (acknowledge v s).inputs = s.inputs := rfl
@[simp] theorem acknowledge_reply (v : Word) (s : State) : (acknowledge v s).reply = s.reply := rfl
@[simp] theorem acknowledge_inReset (v : Word) (s : State) : (acknowledge v s).inReset = s.inReset := rfl

/-! `clearOvr` -/

@[simp] theorem clearOvr_key (v : Word) (s : State) : (clearOvr v s).key = s.key := rfl
@[simp] theorem clearOvr_keyLen (v : Word) (s : State) : (clearOvr v s).keyLen = s.keyLen := rfl
@[simp] theorem clearOvr_counter (v : Word) (s : State) : (clearOvr v s).counter = s.counter := rfl
@[simp] theorem clearOvr_time (v : Word) (s : State) : (clearOvr v s).time = s.time := rfl
@[simp] theorem clearOvr_msg (v : Word) (s : State) : (clearOvr v s).msg = s.msg := rfl
@[simp] theorem clearOvr_digest (v : Word) (s : State) : (clearOvr v s).digest = s.digest := rfl
@[simp] theorem clearOvr_offset (v : Word) (s : State) : (clearOvr v s).offset = s.offset := rfl
@[simp] theorem clearOvr_trunc (v : Word) (s : State) : (clearOvr v s).trunc = s.trunc := rfl
@[simp] theorem clearOvr_code (v : Word) (s : State) : (clearOvr v s).code = s.code := rfl
@[simp] theorem clearOvr_ascii (v : Word) (s : State) : (clearOvr v s).ascii = s.ascii := rfl
@[simp] theorem clearOvr_op (v : Word) (s : State) : (clearOvr v s).op = s.op := rfl
@[simp] theorem clearOvr_irqEn (v : Word) (s : State) : (clearOvr v s).irqEn = s.irqEn := rfl
@[simp] theorem clearOvr_busy (v : Word) (s : State) : (clearOvr v s).busy = s.busy := rfl
@[simp] theorem clearOvr_pending (v : Word) (s : State) : (clearOvr v s).pending = s.pending := rfl
@[simp] theorem clearOvr_done (v : Word) (s : State) : (clearOvr v s).done = s.done := rfl
@[simp] theorem clearOvr_err (v : Word) (s : State) : (clearOvr v s).err = s.err := rfl
@[simp] theorem clearOvr_errcode (v : Word) (s : State) : (clearOvr v s).errcode = s.errcode := rfl
@[simp] theorem clearOvr_ovr (v : Word) (s : State) : (clearOvr v s).ovr = (s.ovr && !v.getLsbD 8) := rfl
@[simp] theorem clearOvr_cfg (v : Word) (s : State) : (clearOvr v s).cfg = s.cfg := rfl
@[simp] theorem clearOvr_inputs (v : Word) (s : State) : (clearOvr v s).inputs = s.inputs := rfl
@[simp] theorem clearOvr_reply (v : Word) (s : State) : (clearOvr v s).reply = s.reply := rfl
@[simp] theorem clearOvr_inReset (v : Word) (s : State) : (clearOvr v s).inReset = s.inReset := rfl

/-! `encStage` -/

@[simp] theorem encStage_key (s : State) : (encStage s).key = s.key := rfl
@[simp] theorem encStage_keyLen (s : State) : (encStage s).keyLen = s.keyLen := rfl
@[simp] theorem encStage_counter (s : State) : (encStage s).counter = s.counter := rfl
@[simp] theorem encStage_time (s : State) : (encStage s).time = s.time := rfl
@[simp] theorem encStage_msg (s : State) : (encStage s).msg = encodeCounter s.counter := rfl
@[simp] theorem encStage_digest (s : State) : (encStage s).digest = s.digest := rfl
@[simp] theorem encStage_offset (s : State) : (encStage s).offset = s.offset := rfl
@[simp] theorem encStage_trunc (s : State) : (encStage s).trunc = s.trunc := rfl
@[simp] theorem encStage_code (s : State) : (encStage s).code = s.code := rfl
@[simp] theorem encStage_ascii (s : State) : (encStage s).ascii = s.ascii := rfl
@[simp] theorem encStage_op (s : State) : (encStage s).op = s.op := rfl
@[simp] theorem encStage_irqEn (s : State) : (encStage s).irqEn = s.irqEn := rfl
@[simp] theorem encStage_busy (s : State) : (encStage s).busy = s.busy := rfl
@[simp] theorem encStage_pending (s : State) : (encStage s).pending = s.pending := rfl
@[simp] theorem encStage_done (s : State) : (encStage s).done = s.done := rfl
@[simp] theorem encStage_err (s : State) : (encStage s).err = s.err := rfl
@[simp] theorem encStage_errcode (s : State) : (encStage s).errcode = s.errcode := rfl
@[simp] theorem encStage_ovr (s : State) : (encStage s).ovr = s.ovr := rfl
@[simp] theorem encStage_cfg (s : State) : (encStage s).cfg = s.cfg := rfl
@[simp] theorem encStage_inputs (s : State) : (encStage s).inputs = s.inputs := rfl
@[simp] theorem encStage_reply (s : State) : (encStage s).reply = s.reply := rfl
@[simp] theorem encStage_inReset (s : State) : (encStage s).inReset = s.inReset := rfl

/-! `macStage` -/

@[simp] theorem macStage_key (s : State) : (macStage s).key = s.key := rfl
@[simp] theorem macStage_keyLen (s : State) : (macStage s).keyLen = s.keyLen := rfl
@[simp] theorem macStage_counter (s : State) : (macStage s).counter = s.counter := rfl
@[simp] theorem macStage_time (s : State) : (macStage s).time = s.time := rfl
@[simp] theorem macStage_msg (s : State) : (macStage s).msg = s.msg := rfl
@[simp] theorem macStage_digest (s : State) : (macStage s).digest = hmacSha1 (keyBytes s) s.msg.toList := rfl
@[simp] theorem macStage_offset (s : State) : (macStage s).offset = s.offset := rfl
@[simp] theorem macStage_trunc (s : State) : (macStage s).trunc = s.trunc := rfl
@[simp] theorem macStage_code (s : State) : (macStage s).code = s.code := rfl
@[simp] theorem macStage_ascii (s : State) : (macStage s).ascii = s.ascii := rfl
@[simp] theorem macStage_op (s : State) : (macStage s).op = s.op := rfl
@[simp] theorem macStage_irqEn (s : State) : (macStage s).irqEn = s.irqEn := rfl
@[simp] theorem macStage_busy (s : State) : (macStage s).busy = s.busy := rfl
@[simp] theorem macStage_pending (s : State) : (macStage s).pending = s.pending := rfl
@[simp] theorem macStage_done (s : State) : (macStage s).done = s.done := rfl
@[simp] theorem macStage_err (s : State) : (macStage s).err = s.err := rfl
@[simp] theorem macStage_errcode (s : State) : (macStage s).errcode = s.errcode := rfl
@[simp] theorem macStage_ovr (s : State) : (macStage s).ovr = s.ovr := rfl
@[simp] theorem macStage_cfg (s : State) : (macStage s).cfg = s.cfg := rfl
@[simp] theorem macStage_inputs (s : State) : (macStage s).inputs = s.inputs := rfl
@[simp] theorem macStage_reply (s : State) : (macStage s).reply = s.reply := rfl
@[simp] theorem macStage_inReset (s : State) : (macStage s).inReset = s.inReset := rfl

/-! `truncStage` -/

@[simp] theorem truncStage_key (s : State) : (truncStage s).key = s.key := rfl
@[simp] theorem truncStage_keyLen (s : State) : (truncStage s).keyLen = s.keyLen := rfl
@[simp] theorem truncStage_counter (s : State) : (truncStage s).counter = s.counter := rfl
@[simp] theorem truncStage_time (s : State) : (truncStage s).time = s.time := rfl
@[simp] theorem truncStage_msg (s : State) : (truncStage s).msg = s.msg := rfl
@[simp] theorem truncStage_digest (s : State) : (truncStage s).digest = s.digest := rfl
@[simp] theorem truncStage_offset (s : State) : (truncStage s).offset = truncOffset s.digest := rfl
@[simp] theorem truncStage_trunc (s : State) : (truncStage s).trunc = truncResult s.digest := rfl
@[simp] theorem truncStage_code (s : State) : (truncStage s).code = s.code := rfl
@[simp] theorem truncStage_ascii (s : State) : (truncStage s).ascii = s.ascii := rfl
@[simp] theorem truncStage_op (s : State) : (truncStage s).op = s.op := rfl
@[simp] theorem truncStage_irqEn (s : State) : (truncStage s).irqEn = s.irqEn := rfl
@[simp] theorem truncStage_busy (s : State) : (truncStage s).busy = s.busy := rfl
@[simp] theorem truncStage_pending (s : State) : (truncStage s).pending = s.pending := rfl
@[simp] theorem truncStage_done (s : State) : (truncStage s).done = s.done := rfl
@[simp] theorem truncStage_err (s : State) : (truncStage s).err = s.err := rfl
@[simp] theorem truncStage_errcode (s : State) : (truncStage s).errcode = s.errcode := rfl
@[simp] theorem truncStage_ovr (s : State) : (truncStage s).ovr = s.ovr := rfl
@[simp] theorem truncStage_cfg (s : State) : (truncStage s).cfg = s.cfg := rfl
@[simp] theorem truncStage_inputs (s : State) : (truncStage s).inputs = s.inputs := rfl
@[simp] theorem truncStage_reply (s : State) : (truncStage s).reply = s.reply := rfl
@[simp] theorem truncStage_inReset (s : State) : (truncStage s).inReset = s.inReset := rfl

/-! `modStage` -/

@[simp] theorem modStage_key (s : State) : (modStage s).key = s.key := rfl
@[simp] theorem modStage_keyLen (s : State) : (modStage s).keyLen = s.keyLen := rfl
@[simp] theorem modStage_counter (s : State) : (modStage s).counter = s.counter := rfl
@[simp] theorem modStage_time (s : State) : (modStage s).time = s.time := rfl
@[simp] theorem modStage_msg (s : State) : (modStage s).msg = s.msg := rfl
@[simp] theorem modStage_digest (s : State) : (modStage s).digest = s.digest := rfl
@[simp] theorem modStage_offset (s : State) : (modStage s).offset = s.offset := rfl
@[simp] theorem modStage_trunc (s : State) : (modStage s).trunc = s.trunc := rfl
@[simp] theorem modStage_code (s : State) : (modStage s).code = reduce s.trunc := rfl
@[simp] theorem modStage_ascii (s : State) : (modStage s).ascii = s.ascii := rfl
@[simp] theorem modStage_op (s : State) : (modStage s).op = s.op := rfl
@[simp] theorem modStage_irqEn (s : State) : (modStage s).irqEn = s.irqEn := rfl
@[simp] theorem modStage_busy (s : State) : (modStage s).busy = s.busy := rfl
@[simp] theorem modStage_pending (s : State) : (modStage s).pending = s.pending := rfl
@[simp] theorem modStage_done (s : State) : (modStage s).done = s.done := rfl
@[simp] theorem modStage_err (s : State) : (modStage s).err = s.err := rfl
@[simp] theorem modStage_errcode (s : State) : (modStage s).errcode = s.errcode := rfl
@[simp] theorem modStage_ovr (s : State) : (modStage s).ovr = s.ovr := rfl
@[simp] theorem modStage_cfg (s : State) : (modStage s).cfg = s.cfg := rfl
@[simp] theorem modStage_inputs (s : State) : (modStage s).inputs = s.inputs := rfl
@[simp] theorem modStage_reply (s : State) : (modStage s).reply = s.reply := rfl
@[simp] theorem modStage_inReset (s : State) : (modStage s).inReset = s.inReset := rfl

/-! `fmtStage` -/

@[simp] theorem fmtStage_key (s : State) : (fmtStage s).key = s.key := rfl
@[simp] theorem fmtStage_keyLen (s : State) : (fmtStage s).keyLen = s.keyLen := rfl
@[simp] theorem fmtStage_counter (s : State) : (fmtStage s).counter = s.counter := rfl
@[simp] theorem fmtStage_time (s : State) : (fmtStage s).time = s.time := rfl
@[simp] theorem fmtStage_msg (s : State) : (fmtStage s).msg = s.msg := rfl
@[simp] theorem fmtStage_digest (s : State) : (fmtStage s).digest = s.digest := rfl
@[simp] theorem fmtStage_offset (s : State) : (fmtStage s).offset = s.offset := rfl
@[simp] theorem fmtStage_trunc (s : State) : (fmtStage s).trunc = s.trunc := rfl
@[simp] theorem fmtStage_code (s : State) : (fmtStage s).code = s.code := rfl
@[simp] theorem fmtStage_ascii (s : State) : (fmtStage s).ascii = render s.code := rfl
@[simp] theorem fmtStage_op (s : State) : (fmtStage s).op = s.op := rfl
@[simp] theorem fmtStage_irqEn (s : State) : (fmtStage s).irqEn = s.irqEn := rfl
@[simp] theorem fmtStage_busy (s : State) : (fmtStage s).busy = s.busy := rfl
@[simp] theorem fmtStage_pending (s : State) : (fmtStage s).pending = s.pending := rfl
@[simp] theorem fmtStage_done (s : State) : (fmtStage s).done = s.done := rfl
@[simp] theorem fmtStage_err (s : State) : (fmtStage s).err = s.err := rfl
@[simp] theorem fmtStage_errcode (s : State) : (fmtStage s).errcode = s.errcode := rfl
@[simp] theorem fmtStage_ovr (s : State) : (fmtStage s).ovr = s.ovr := rfl
@[simp] theorem fmtStage_cfg (s : State) : (fmtStage s).cfg = s.cfg := rfl
@[simp] theorem fmtStage_inputs (s : State) : (fmtStage s).inputs = s.inputs := rfl
@[simp] theorem fmtStage_reply (s : State) : (fmtStage s).reply = s.reply := rfl
@[simp] theorem fmtStage_inReset (s : State) : (fmtStage s).inReset = s.inReset := rfl

/-! `tstepStage` -/

@[simp] theorem tstepStage_key (s : State) : (tstepStage s).key = s.key := rfl
@[simp] theorem tstepStage_keyLen (s : State) : (tstepStage s).keyLen = s.keyLen := rfl
@[simp] theorem tstepStage_counter (s : State) : (tstepStage s).counter = timeStep s.time := rfl
@[simp] theorem tstepStage_time (s : State) : (tstepStage s).time = s.time := rfl
@[simp] theorem tstepStage_msg (s : State) : (tstepStage s).msg = s.msg := rfl
@[simp] theorem tstepStage_digest (s : State) : (tstepStage s).digest = s.digest := rfl
@[simp] theorem tstepStage_offset (s : State) : (tstepStage s).offset = s.offset := rfl
@[simp] theorem tstepStage_trunc (s : State) : (tstepStage s).trunc = s.trunc := rfl
@[simp] theorem tstepStage_code (s : State) : (tstepStage s).code = s.code := rfl
@[simp] theorem tstepStage_ascii (s : State) : (tstepStage s).ascii = s.ascii := rfl
@[simp] theorem tstepStage_op (s : State) : (tstepStage s).op = s.op := rfl
@[simp] theorem tstepStage_irqEn (s : State) : (tstepStage s).irqEn = s.irqEn := rfl
@[simp] theorem tstepStage_busy (s : State) : (tstepStage s).busy = s.busy := rfl
@[simp] theorem tstepStage_pending (s : State) : (tstepStage s).pending = s.pending := rfl
@[simp] theorem tstepStage_done (s : State) : (tstepStage s).done = s.done := rfl
@[simp] theorem tstepStage_err (s : State) : (tstepStage s).err = s.err := rfl
@[simp] theorem tstepStage_errcode (s : State) : (tstepStage s).errcode = s.errcode := rfl
@[simp] theorem tstepStage_ovr (s : State) : (tstepStage s).ovr = s.ovr := rfl
@[simp] theorem tstepStage_cfg (s : State) : (tstepStage s).cfg = s.cfg := rfl
@[simp] theorem tstepStage_inputs (s : State) : (tstepStage s).inputs = s.inputs := rfl
@[simp] theorem tstepStage_reply (s : State) : (tstepStage s).reply = s.reply := rfl
@[simp] theorem tstepStage_inReset (s : State) : (tstepStage s).inReset = s.inReset := rfl

/-! `pollStatus` -/

@[simp] theorem pollStatus_key (s : State) : (pollStatus s).key = s.key := rfl
@[simp] theorem pollStatus_keyLen (s : State) : (pollStatus s).keyLen = s.keyLen := rfl
@[simp] theorem pollStatus_counter (s : State) : (pollStatus s).counter = s.counter := rfl
@[simp] theorem pollStatus_time (s : State) : (pollStatus s).time = s.time := rfl
@[simp] theorem pollStatus_msg (s : State) : (pollStatus s).msg = s.msg := rfl
@[simp] theorem pollStatus_digest (s : State) : (pollStatus s).digest = s.digest := rfl
@[simp] theorem pollStatus_offset (s : State) : (pollStatus s).offset = s.offset := rfl
@[simp] theorem pollStatus_trunc (s : State) : (pollStatus s).trunc = s.trunc := rfl
@[simp] theorem pollStatus_code (s : State) : (pollStatus s).code = s.code := rfl
@[simp] theorem pollStatus_ascii (s : State) : (pollStatus s).ascii = s.ascii := rfl
@[simp] theorem pollStatus_op (s : State) : (pollStatus s).op = s.op := rfl
@[simp] theorem pollStatus_irqEn (s : State) : (pollStatus s).irqEn = s.irqEn := rfl
@[simp] theorem pollStatus_busy (s : State) : (pollStatus s).busy = s.busy := rfl
@[simp] theorem pollStatus_pending (s : State) : (pollStatus s).pending = s.pending := rfl
@[simp] theorem pollStatus_done (s : State) : (pollStatus s).done = s.done := rfl
@[simp] theorem pollStatus_err (s : State) : (pollStatus s).err = s.err := rfl
@[simp] theorem pollStatus_errcode (s : State) : (pollStatus s).errcode = s.errcode := rfl
@[simp] theorem pollStatus_ovr (s : State) : (pollStatus s).ovr = s.ovr := rfl
@[simp] theorem pollStatus_cfg (s : State) : (pollStatus s).cfg = s.cfg := rfl
@[simp] theorem pollStatus_inputs (s : State) : (pollStatus s).inputs = s.inputs := rfl
@[simp] theorem pollStatus_reply (s : State) : (pollStatus s).reply = some (.okRead (statusWord s)) := rfl
@[simp] theorem pollStatus_inReset (s : State) : (pollStatus s).inReset = s.inReset := rfl

/-! `State.resetOf` -/

@[simp] theorem state_resetOf_key (c : Config) : (State.resetOf c).key = [] := rfl
@[simp] theorem state_resetOf_keyLen (c : Config) : (State.resetOf c).keyLen = 0 := rfl
@[simp] theorem state_resetOf_counter (c : Config) : (State.resetOf c).counter = 0 := rfl
@[simp] theorem state_resetOf_time (c : Config) : (State.resetOf c).time = 0 := rfl
@[simp] theorem state_resetOf_msg (c : Config) : (State.resetOf c).msg = Vector.replicate 8 0 := rfl
@[simp] theorem state_resetOf_digest (c : Config) : (State.resetOf c).digest = Vector.replicate 20 0 := rfl
@[simp] theorem state_resetOf_offset (c : Config) : (State.resetOf c).offset = 0 := rfl
@[simp] theorem state_resetOf_trunc (c : Config) : (State.resetOf c).trunc = 0 := rfl
@[simp] theorem state_resetOf_code (c : Config) : (State.resetOf c).code = 0 := rfl
@[simp] theorem state_resetOf_ascii (c : Config) : (State.resetOf c).ascii = Vector.replicate 6 0 := rfl
@[simp] theorem state_resetOf_op (c : Config) : (State.resetOf c).op = 0 := rfl
@[simp] theorem state_resetOf_irqEn (c : Config) : (State.resetOf c).irqEn = false := rfl
@[simp] theorem state_resetOf_busy (c : Config) : (State.resetOf c).busy = false := rfl
@[simp] theorem state_resetOf_pending (c : Config) : (State.resetOf c).pending = 0 := rfl
@[simp] theorem state_resetOf_done (c : Config) : (State.resetOf c).done = false := rfl
@[simp] theorem state_resetOf_err (c : Config) : (State.resetOf c).err = false := rfl
@[simp] theorem state_resetOf_errcode (c : Config) : (State.resetOf c).errcode = 0 := rfl
@[simp] theorem state_resetOf_ovr (c : Config) : (State.resetOf c).ovr = false := rfl
@[simp] theorem state_resetOf_cfg (c : Config) : (State.resetOf c).cfg = c := rfl
@[simp] theorem state_resetOf_inputs (c : Config) : (State.resetOf c).inputs = [] := rfl
@[simp] theorem state_resetOf_reply (c : Config) : (State.resetOf c).reply = none := rfl
@[simp] theorem state_resetOf_inReset (c : Config) : (State.resetOf c).inReset = false := rfl

/-! `resetState` -/

@[simp] theorem resetState_key (s : State) : (resetState s).key = [] := rfl
@[simp] theorem resetState_keyLen (s : State) : (resetState s).keyLen = 0 := rfl
@[simp] theorem resetState_counter (s : State) : (resetState s).counter = 0 := rfl
@[simp] theorem resetState_time (s : State) : (resetState s).time = 0 := rfl
@[simp] theorem resetState_msg (s : State) : (resetState s).msg = Vector.replicate 8 0 := rfl
@[simp] theorem resetState_digest (s : State) : (resetState s).digest = Vector.replicate 20 0 := rfl
@[simp] theorem resetState_offset (s : State) : (resetState s).offset = 0 := rfl
@[simp] theorem resetState_trunc (s : State) : (resetState s).trunc = 0 := rfl
@[simp] theorem resetState_code (s : State) : (resetState s).code = 0 := rfl
@[simp] theorem resetState_ascii (s : State) : (resetState s).ascii = Vector.replicate 6 0 := rfl
@[simp] theorem resetState_op (s : State) : (resetState s).op = 0 := rfl
@[simp] theorem resetState_irqEn (s : State) : (resetState s).irqEn = false := rfl
@[simp] theorem resetState_busy (s : State) : (resetState s).busy = false := rfl
@[simp] theorem resetState_pending (s : State) : (resetState s).pending = 0 := rfl
@[simp] theorem resetState_done (s : State) : (resetState s).done = false := rfl
@[simp] theorem resetState_err (s : State) : (resetState s).err = false := rfl
@[simp] theorem resetState_errcode (s : State) : (resetState s).errcode = 0 := rfl
@[simp] theorem resetState_ovr (s : State) : (resetState s).ovr = false := rfl
@[simp] theorem resetState_cfg (s : State) : (resetState s).cfg = s.cfg := rfl
@[simp] theorem resetState_inputs (s : State) : (resetState s).inputs = s.inputs := rfl
@[simp] theorem resetState_reply (s : State) : (resetState s).reply = s.reply := rfl
@[simp] theorem resetState_inReset (s : State) : (resetState s).inReset = s.inReset := rfl

/-! `assertReset` -/

@[simp] theorem assertReset_key (s : State) : (assertReset s).key = [] := rfl
@[simp] theorem assertReset_keyLen (s : State) : (assertReset s).keyLen = 0 := rfl
@[simp] theorem assertReset_counter (s : State) : (assertReset s).counter = 0 := rfl
@[simp] theorem assertReset_time (s : State) : (assertReset s).time = 0 := rfl
@[simp] theorem assertReset_msg (s : State) : (assertReset s).msg = Vector.replicate 8 0 := rfl
@[simp] theorem assertReset_digest (s : State) : (assertReset s).digest = Vector.replicate 20 0 := rfl
@[simp] theorem assertReset_offset (s : State) : (assertReset s).offset = 0 := rfl
@[simp] theorem assertReset_trunc (s : State) : (assertReset s).trunc = 0 := rfl
@[simp] theorem assertReset_code (s : State) : (assertReset s).code = 0 := rfl
@[simp] theorem assertReset_ascii (s : State) : (assertReset s).ascii = Vector.replicate 6 0 := rfl
@[simp] theorem assertReset_op (s : State) : (assertReset s).op = 0 := rfl
@[simp] theorem assertReset_irqEn (s : State) : (assertReset s).irqEn = false := rfl
@[simp] theorem assertReset_busy (s : State) : (assertReset s).busy = false := rfl
@[simp] theorem assertReset_pending (s : State) : (assertReset s).pending = 0 := rfl
@[simp] theorem assertReset_done (s : State) : (assertReset s).done = false := rfl
@[simp] theorem assertReset_err (s : State) : (assertReset s).err = false := rfl
@[simp] theorem assertReset_errcode (s : State) : (assertReset s).errcode = 0 := rfl
@[simp] theorem assertReset_ovr (s : State) : (assertReset s).ovr = false := rfl
@[simp] theorem assertReset_cfg (s : State) : (assertReset s).cfg = s.cfg := rfl
@[simp] theorem assertReset_inputs (s : State) : (assertReset s).inputs = s.inputs := rfl
@[simp] theorem assertReset_reply (s : State) : (assertReset s).reply = none := rfl
@[simp] theorem assertReset_inReset (s : State) : (assertReset s).inReset = true := rfl

end Sys2Proof.Machine
end

