-- ==== Sys2Proof/Laws/Ops.lean ====
section
/-! SUPPORT. One lemma per shared operation that says everything it can do. -/

namespace Sys2Proof.Machine

/-- The key depends on the key RAM and KEY_LEN alone, and of the key RAM on the bytes below KEY_LEN (40 R100). -/
theorem keyBytes_congr {s t : State} (hl : s.keyLen = t.keyLen)
    (hk : ∀ i < s.keyLen.toNat, s.key.read i = t.key.read i) : keyBytes s = keyBytes t := by
  unfold keyBytes
  rw [← hl]
  exact List.map_congr_left fun i hi => hk i (List.mem_range.1 hi)

/-- The key has KEY_LEN bytes (40 R100). -/
@[simp] theorem keyBytes_length (s : State) : (keyBytes s).length = s.keyLen.toNat := by simp [keyBytes]

/-- Byte i of the key is byte i of the key RAM (40 R100). -/
@[simp] theorem keyBytes_getElem (s : State) (i : Nat) (h : i < (keyBytes s).length) :
    (keyBytes s)[i] = s.key.read i := by simp [keyBytes, keyRead]

/-- The key check depends on the part and KEY_LEN alone (60 R182). -/
theorem cryptoCheck_congr {s t : State} (hc : s.cfg = t.cfg) (hl : s.keyLen = t.keyLen) :
    cryptoCheck s = cryptoCheck t := by simp [cryptoCheck, hc, hl]

/-- The host step of a command (30 R81). -/
theorem exec_commandOf (op : BitVec 4) (irqEn : Bool) (s : State) :
    exec (commandOf op irqEn) s = .next (issue op irqEn s) := by
  have h : ∀ op : BitVec 4, op = 0 ∨ op = 1 ∨ op = 2 ∨ op = 3 ∨ op = 4 ∨ op = 5 ∨ op = 6 ∨ op = 7 ∨ op = 8 ∨ op = 9 ∨
      op = 10 ∨ op = 11 ∨ op = 12 ∨ op = 13 ∨ op = 14 ∨ op = 15 := by decide
  rcases h op with h | h | h | h | h | h | h | h | h | h | h | h | h | h | h | h <;> subst h <;> rfl

/-- What `issue` does: the drop while busy, the acceptance while idle (30 R81, 60 R184, R190). -/
theorem issue_cases (op : BitVec 4) (irqEn : Bool) (s : State) :
    (s.busy = true ∧ issue op irqEn s = dropWrite s) ∨ (s.busy = false ∧ issue op irqEn s = accept op irqEn s) := by
  unfold issue
  cases s.busy <;> simp

/-- What the key check answers (60 R182). -/
theorem cryptoCheck_cases (s : State) :
    (cryptoCheck s = 0 ∧ s.cfg.cryptoAvailable = true ∧ s.keyLen.toNat ≤ s.cfg.keyRamBytes ∧
        ¬(s.keyLen = 0 ∧ s.cfg.rejectEmptyKey = true)) ∨
      (cryptoCheck s = unavailable ∧ s.cfg.cryptoAvailable = false) ∨
      (cryptoCheck s = keyImport ∧ s.cfg.cryptoAvailable = true ∧
        (s.cfg.keyRamBytes < s.keyLen.toNat ∨ (s.keyLen = 0 ∧ s.cfg.rejectEmptyKey = true))) := by
  unfold cryptoCheck
  cases hc : s.cfg.cryptoAvailable
  · simp
  · by_cases hk : s.cfg.keyRamBytes < s.keyLen.toNat
    · simp [hk]
    · by_cases he : s.keyLen = 0 ∧ s.cfg.rejectEmptyKey = true
      · simp only [Bool.not_true, Bool.false_eq_true, ↓reduceIte, if_neg hk, if_pos he]
        exact .inr (.inr ⟨trivial, trivial, .inr he⟩)
      · simp only [Bool.not_true, Bool.false_eq_true, ↓reduceIte, if_neg hk, if_neg he]
        exact .inl ⟨trivial, trivial, by omega, he⟩

/-- What a command that uses the key does at completion (40 R112, 42 R161, R163, 60 R186). -/
theorem withKeyCheck_cases (stages : State → State) (s : State) :
    (cryptoCheck s = 0 ∧ withKeyCheck stages s = .next (succeed (stages s))) ∨
      (cryptoCheck s = unavailable ∧ withKeyCheck stages s = .next (failWith unavailable (clearOutputs s))) ∨
      (cryptoCheck s = keyImport ∧ withKeyCheck stages s = .next (failWith keyImport (clearOutputs s))) := by
  rcases cryptoCheck_cases s with ⟨h, _⟩ | ⟨h, _⟩ | ⟨h, _⟩
  · exact .inl ⟨h, by simp [withKeyCheck, h, complete]⟩
  · exact .inr (.inl ⟨h, by simp [withKeyCheck, h, raiseCmdError, badOp, unavailable]⟩)
  · exact .inr (.inr ⟨h, by simp [withKeyCheck, h, raiseCmdError, badOp, unavailable, keyImport]⟩)

/-- BAD_OP's completion (60 R186): code 1 clears nothing. -/
theorem completeReserved_next (s : State) : completeReserved s = .next (failWith badOp s) := by
  simp [completeReserved, raiseCmdError]

/-- What the completion step can leave: the success of the pending command's stages, the error of a key check, or
BAD_OP (60 R185 to R187). -/
theorem completePending_cases (s : State) :
    ∃ t, completePending s = .next t ∧
      ((s.pending = 0x1#4 ∧ t = succeed (encStage s)) ∨
        (s.pending = 0x2#4 ∧ cryptoCheck s = 0 ∧ t = succeed (macStage s)) ∨
        (s.pending = 0x3#4 ∧ t = succeed (truncStage s)) ∨
        (s.pending = 0x4#4 ∧ t = succeed (modStage s)) ∨
        (s.pending = 0x5#4 ∧ t = succeed (fmtStage s)) ∨
        (s.pending = 0x6#4 ∧ t = succeed (tstepStage s)) ∨
        (s.pending = 0x8#4 ∧ cryptoCheck s = 0 ∧ t = succeed (hotpStages s)) ∨
        (s.pending = 0x9#4 ∧ cryptoCheck s = 0 ∧ t = succeed (totpStages s)) ∨
        ((s.pending = 0x2#4 ∨ s.pending = 0x8#4 ∨ s.pending = 0x9#4) ∧
          (cryptoCheck s = unavailable ∨ cryptoCheck s = keyImport) ∧
          t = failWith (cryptoCheck s) (clearOutputs s)) ∨
        ((s.pending = 0x0#4 ∨ s.pending = 0x7#4 ∨ s.pending = 0xA#4 ∨ s.pending = 0xB#4 ∨ s.pending = 0xC#4 ∨
            s.pending = 0xD#4 ∨ s.pending = 0xE#4 ∨ s.pending = 0xF#4) ∧
          t = failWith badOp s)) := by
  have h : ∀ op : BitVec 4, op = 0 ∨ op = 1 ∨ op = 2 ∨ op = 3 ∨ op = 4 ∨ op = 5 ∨ op = 6 ∨ op = 7 ∨ op = 8 ∨ op = 9 ∨
      op = 10 ∨ op = 11 ∨ op = 12 ∨ op = 13 ∨ op = 14 ∨ op = 15 := by decide
  unfold completePending
  rcases h s.pending with h | h | h | h | h | h | h | h | h | h | h | h | h | h | h | h <;> rw [h]
  all_goals first
    | exact ⟨_, completeReserved_next s, by simp⟩
    | (refine ⟨_, rfl, ?_⟩; simp)
    | skip
  · rcases withKeyCheck_cases macStage s with ⟨h, e⟩ | ⟨h, e⟩ | ⟨h, e⟩ <;> exact ⟨_, e, by simp [h]⟩
  · rcases withKeyCheck_cases hotpStages s with ⟨h, e⟩ | ⟨h, e⟩ | ⟨h, e⟩ <;> exact ⟨_, e, by simp [h]⟩
  · rcases withKeyCheck_cases totpStages s with ⟨h, e⟩ | ⟨h, e⟩ | ⟨h, e⟩ <;> exact ⟨_, e, by simp [h]⟩

/-- The engine's turn (60 R185, R201). -/
theorem engineStep_cases (s : State) :
    (s.busy = true ∧ s.inReset = false ∧ engineStep s = completePending s) ∨
      ((s.busy = false ∨ s.inReset = true) ∧ engineStep s = .next s) := by
  unfold engineStep
  cases s.busy <;> cases s.inReset <;> simp

/-- What a mapped write does (20 R61, 10 R27, 30 R81, 60 R190). -/
theorem busWrite_cases (t : Target) (v : Word) (s : State) :
    (t = .reg .ctrl ∧ busWrite t v s = exec (decode v) s) ∨
      (t = .reg .status ∧ busWrite t v s = .next (if s.busy then clearOvr v s else acknowledge v s)) ∨
      (t ≠ .reg .ctrl ∧ t ≠ .reg .status ∧
        busWrite t v s = .next (if s.busy then dropWrite s else writeTarget s v t)) := by
  cases t with
  | keyWord j => exact .inr (.inr ⟨by simp, by simp, rfl⟩)
  | reg r =>
    cases r with
    | ctrl => exact .inl ⟨rfl, rfl⟩
    | status => exact .inr (.inl ⟨rfl, rfl⟩)
    | _ => exact .inr (.inr ⟨by simp, by simp, rfl⟩)

/-- What the CTRL write does (30 R81). -/
theorem exec_decode (v : Word) (s : State) :
    exec (decode v) s = .next (if ctrlSrst v then resetState s else if s.busy then dropWrite s else
      if ctrlStart v then accept (ctrlOp v) (ctrlIrqEn v) s else configure (ctrlIrqEn v) (ctrlOp v) s) := by
  unfold decode
  cases ctrlSrst v
  · cases ctrlStart v
    · rfl
    · simp only [Bool.false_eq_true, ↓reduceIte, exec_commandOf, issue]
  · rfl

/-- What a transaction at an offset does (20 R61 to R64, R69). -/
theorem busTransaction_cases (off : Nat) (lanes : BitVec 4) (op : BusOp) (s : State) :
    (∃ e, busDecode s.cfg off lanes = .error e ∧
        busTransaction off lanes op s = .next { s with reply := some .busError }) ∨
      (∃ t, busDecode s.cfg off lanes = .ok t ∧ op = .read ∧
        busTransaction off lanes op s = .next { s with reply := some (.okRead (readTarget s t)) }) ∨
      (∃ t v, busDecode s.cfg off lanes = .ok t ∧ op = .write v ∧
        busTransaction off lanes op s = busWrite t v { s with reply := some .okWrite }) := by
  unfold busTransaction
  cases h : busDecode s.cfg off lanes with
  | error e => exact .inl ⟨e, rfl, rfl⟩
  | ok t =>
    cases op with
    | read => exact .inr (.inl ⟨t, rfl, rfl, rfl⟩)
    | write v => exact .inr (.inr ⟨t, v, rfl, rfl, rfl⟩)

end Sys2Proof.Machine
end

