-- ==== Sys2Proof/Laws/PerInstr.lean ====
section
/-! SUPPORT. The family `EncodesRow` over all instructions: an instruction's word matches its own row of the opcode table and
no other (30 R84, R85, R82, R87). -/

namespace Sys2Proof.Laws.EncodesRow

/-- The rows that admit the instruction's word are exactly the row of its mnemonic. -/
def Statement (i : Instr) : Prop :=
  (opcodeTable.filter fun r => r.admits (encode i)).map OpRow.mnemonic = [i.mnemonic]

theorem enc (irqEn : Bool) : Statement (.enc irqEn) := by
  unfold Statement
  cases irqEn <;> decide

theorem mac (irqEn : Bool) : Statement (.mac irqEn) := by
  unfold Statement
  cases irqEn <;> decide

theorem trunc (irqEn : Bool) : Statement (.trunc irqEn) := by
  unfold Statement
  cases irqEn <;> decide

theorem mod (irqEn : Bool) : Statement (.mod irqEn) := by
  unfold Statement
  cases irqEn <;> decide

theorem fmt (irqEn : Bool) : Statement (.fmt irqEn) := by
  unfold Statement
  cases irqEn <;> decide

theorem tstep (irqEn : Bool) : Statement (.tstep irqEn) := by
  unfold Statement
  cases irqEn <;> decide

theorem hotp (irqEn : Bool) : Statement (.hotp irqEn) := by
  unfold Statement
  cases irqEn <;> decide

theorem totp (irqEn : Bool) : Statement (.totp irqEn) := by
  unfold Statement
  cases irqEn <;> decide

theorem srst (ignored : BitVec 31) : Statement (.srst ignored) := by
  have h : ∀ mask : Word, mask.getLsbD 31 = true →
      (encode (.srst ignored) &&& mask).getLsbD 31 = true := by
    intro mask hm
    simp [encode, hm]
  have ne : ∀ mask pattern : Word, mask.getLsbD 31 = true → pattern.getLsbD 31 = false →
      ((encode (.srst ignored) &&& mask) == pattern) = false := by
    intro mask pattern hm hp
    rw [beq_eq_false_iff_ne]
    intro e
    have := h mask hm
    rw [e, hp] at this
    cases this
  have eq : ((encode (.srst ignored) &&& 0x80000000#32) == 0x80000000#32) = true := by
    rw [beq_iff_eq]
    apply BitVec.eq_of_getLsbD_eq
    intro i hi
    simp only [encode, BitVec.getLsbD_and, BitVec.getLsbD_or, BitVec.getLsbD_setWidth]
    by_cases h31 : i = 31
    · subst h31
      simp
    · have : BitVec.getLsbD 0x80000000#32 i = false := by interval_cases i <;> first | rfl | contradiction
      simp [this]
  simp [Statement, opcodeTable, OpRow.admits, List.filter, ne, eq, Instr.mnemonic]

theorem cfg (irqEn : Bool) (op : BitVec 4) : Statement (.cfg irqEn op) := by
  revert irqEn op
  unfold Statement
  decide

theorem rsvdOp0 (irqEn : Bool) : Statement (.rsvdOp0 irqEn) := by
  unfold Statement
  cases irqEn <;> decide

theorem rsvdOp7 (irqEn : Bool) : Statement (.rsvdOp7 irqEn) := by
  unfold Statement
  cases irqEn <;> decide

theorem rsvdOpA (irqEn : Bool) : Statement (.rsvdOpA irqEn) := by
  unfold Statement
  cases irqEn <;> decide

theorem rsvdOpB (irqEn : Bool) : Statement (.rsvdOpB irqEn) := by
  unfold Statement
  cases irqEn <;> decide

theorem rsvdOpC (irqEn : Bool) : Statement (.rsvdOpC irqEn) := by
  unfold Statement
  cases irqEn <;> decide

theorem rsvdOpD (irqEn : Bool) : Statement (.rsvdOpD irqEn) := by
  unfold Statement
  cases irqEn <;> decide

theorem rsvdOpE (irqEn : Bool) : Statement (.rsvdOpE irqEn) := by
  unfold Statement
  cases irqEn <;> decide

theorem rsvdOpF (irqEn : Bool) : Statement (.rsvdOpF irqEn) := by
  unfold Statement
  cases irqEn <;> decide

end Sys2Proof.Laws.EncodesRow
end

