-- ==== Sys2Proof/Laws/Step.lean ====
section
/-! SUPPORT. What one step can do: the inversion of `step`, from which invariants are derived. -/

namespace Sys2Proof.Machine

/-- A step that answers a next state is one of: nothing moved but the model's own fields; the engine completed the
outstanding command; a mapped host write; the reset input. -/
theorem step_cases {s t : State} (h : step s = .next t) :
    (∃ rest reply, t = { s with inputs := rest, reply := reply }) ∨
      (∃ rest, s.busy = true ∧ s.inReset = false ∧ completePending { s with inputs := rest } = .next t) ∨
      (∃ a rest off tgt v, s.inReset = false ∧ s.inputs = .bus a :: rest ∧ windowOffset s.cfg a.addr = some off ∧
        busDecode s.cfg off a.lanes = .ok tgt ∧ a.op = .write v ∧
        busWrite tgt v { s with inputs := rest, reply := some .okWrite } = .next t) ∨
      (∃ rest, s.inputs = .resetAssert :: rest ∧ t = assertReset { s with inputs := rest }) ∨
      (∃ rest, s.inputs = .resetRelease :: rest ∧ s.inReset = true ∧
        t = { resetState { s with inputs := rest } with inReset := false }) := by
  have engine : ∀ rest, engineStep { s with inputs := rest } = .next t →
      (∃ rest reply, t = { s with inputs := rest, reply := reply }) ∨
      (∃ rest, s.busy = true ∧ s.inReset = false ∧ completePending { s with inputs := rest } = .next t) := by
    intro rest he
    rcases engineStep_cases { s with inputs := rest } with ⟨hb, hr, e⟩ | ⟨_, e⟩
    · exact .inr ⟨rest, hb, hr, e ▸ he⟩
    · rw [e] at he
      cases he
      exact .inl ⟨rest, s.reply, rfl⟩
  unfold step turn at h
  split at h
  · rename_i hi
    exact (engine [] (by rw [← hi]; exact h)).elim .inl fun h => .inr (.inl h)
  · rename_i a rest hi
    unfold busAccess at h
    split at h
    · cases h
      exact .inl ⟨rest, none, rfl⟩
    · rename_i hr
      split at h
      · rename_i off ho
        rcases busTransaction_cases off a.lanes a.op { s with inputs := rest } with
          ⟨e, _, ht⟩ | ⟨tgt, _, _, ht⟩ | ⟨tgt, v, hd, hop, ht⟩
        · rw [ht] at h
          cases h
          exact .inl ⟨rest, _, rfl⟩
        · rw [ht] at h
          cases h
          exact .inl ⟨rest, _, rfl⟩
        · rw [ht] at h
          exact .inr (.inr (.inl ⟨a, rest, off, tgt, v, by simpa using hr, hi, ho, hd, hop, h⟩))
      · cases h
        exact .inl ⟨rest, none, rfl⟩
  · rename_i rest hi
    exact (engine rest h).elim .inl fun h => .inr (.inl h)
  · rename_i rest hi
    cases h
    exact .inr (.inr (.inr (.inl ⟨rest, hi, rfl⟩)))
  · rename_i rest hi
    unfold releaseReset at h
    split at h
    · rename_i hr
      cases h
      exact .inr (.inr (.inr (.inr ⟨rest, hi, hr, rfl⟩)))
    · cases h
      exact .inl ⟨rest, s.reply, rfl⟩
  · rename_i rest hi
    unfold waitDone at h
    split at h
    · cases h
      exact .inl ⟨s.inputs, s.reply, rfl⟩
    · split at h
      · cases h
        exact .inl ⟨rest, _, rfl⟩
      · split at h
        · exact (engine s.inputs h).elim .inl fun h => .inr (.inl h)
        · cases h
          exact .inl ⟨s.inputs, _, rfl⟩
  · rename_i rest hi
    unfold waitIrq at h
    split at h
    · cases h
      exact .inl ⟨rest, s.reply, rfl⟩
    · exact (engine s.inputs h).elim .inl fun h => .inr (.inl h)

/-- A full-width transaction at an offset of the window is that transaction, on the state with the input taken. -/
theorem step_accessAt {s : State} {off : Nat} {op : BusOp} {rest : List Input} (ho : off < windowBytes)
    (hr : s.inReset = false)
    (hi : s.inputs = .bus { addr := s.cfg.base + off, lanes := 0xF#4, op := op } :: rest) :
    step s = busTransaction off 0xF#4 op { s with inputs := rest } := by
  simp [step, turn, hi, busAccess, hr, windowOffset_add ho]

/-- A host write of a register of the map is that register's write. -/
theorem step_writeReg {s : State} {r : Reg} {v : Word} {rest : List Input} (hr : s.inReset = false)
    (hi : s.inputs = .bus { addr := s.cfg.base + r.offsetOf, lanes := 0xF#4, op := .write v } :: rest) :
    step s = busWrite (.reg r) v { s with inputs := rest, reply := some .okWrite } := by
  have ho : r.offsetOf < windowBytes := Nat.lt_of_le_of_lt (offsetOf_le r) (by decide)
  rw [step_accessAt ho hr hi]
  simp [busTransaction]

/-- A host write of a register other than CTRL and STATUS to an idle engine stores it (10 R29 to R37). -/
theorem step_writeReg_idle {s : State} {r : Reg} {v : Word} {rest : List Input} (hb : s.busy = false)
    (hr : s.inReset = false) (hc : r ≠ .ctrl) (hs : r ≠ .status) (hi : s.inputs = writeRegAt s.cfg r v :: rest) :
    step s = .next (writeReg { s with inputs := rest, reply := some .okWrite } v r) := by
  rw [step_writeReg hr hi]
  rcases busWrite_cases (.reg r) v { s with inputs := rest, reply := some .okWrite } with ⟨h, _⟩ | ⟨h, _⟩ | ⟨_, _, e⟩
  · exact absurd (Target.reg.inj h) hc
  · exact absurd (Target.reg.inj h) hs
  · rw [e]
    simp [hb, writeTarget]

/-- A command written to an idle engine, and then the engine's turn: it is accepted and completed (60 R184, R185). -/
theorem step_command {s : State} {w : Word} {op : BitVec 4} {irqEn : Bool} {rest : List Input} (hb : s.busy = false)
    (hr : s.inReset = false) (hd : decode w = commandOf op irqEn)
    (hi : s.inputs = .bus { addr := s.cfg.base + 0x004, lanes := 0xF#4, op := .write w } :: .engine :: rest) :
    ∃ t, step s = .next t ∧
      step t = completePending (accept op irqEn { s with inputs := rest, reply := some .okWrite }) := by
  refine ⟨accept op irqEn { s with inputs := .engine :: rest, reply := some .okWrite }, ?_, ?_⟩
  · rw [step_writeReg (r := .ctrl) hr hi]
    show exec (decode w) _ = _
    rw [hd, exec_commandOf]
    simp [issue, hb]
  · simp [step, turn, accept, engineStep, hr]

/-- The decoder's offsets are those of the table of 10 R22. -/
theorem offsetOf_of_mem {off : Nat} {r : Reg} (h : (off, r) ∈ registerOffsets) : r.offsetOf = off := by
  have all : ∀ p ∈ registerOffsets, p.2.offsetOf = p.1 := by decide
  exact all _ h

/-- A host write of a word of the key RAM is that word's write. -/
theorem step_writeKey {s : State} {j : Nat} {v : Word} {rest : List Input} (hr : s.inReset = false)
    (hj : 4 * j < s.cfg.keyRamBytes) (hw : keyWindow + 4 * j < windowBytes)
    (hi : s.inputs = .bus { addr := s.cfg.base + (keyWindow + 4 * j), lanes := 0xF#4, op := .write v } :: rest) :
    step s = busWrite (.keyWord j) v { s with inputs := rest, reply := some .okWrite } := by
  rw [step_accessAt hw hr hi]
  simp [busTransaction, busDecode_keyWord hj]

/-- A register's write leaves BUSY, the pending code and the model's own fields (10 R27, R29 to R37). -/
theorem writeReg_frame (s : State) (v : Word) (r : Reg) :
    (writeReg s v r).busy = s.busy ∧ (writeReg s v r).pending = s.pending ∧ (writeReg s v r).key = s.key ∧
      (writeReg s v r).cfg = s.cfg ∧ (writeReg s v r).inputs = s.inputs ∧ (writeReg s v r).reply = s.reply ∧
      (writeReg s v r).inReset = s.inReset := by
  cases r <;> exact ⟨rfl, rfl, rfl, rfl, rfl, rfl, rfl⟩

end Sys2Proof.Machine

namespace Sys2Proof

/-- A run of m + n steps is a run of m and then of n. -/
theorem run_add (m n : Nat) (s t : Machine.State) (h : core.run m s = .next t) : core.run (m + n) s = core.run n t := by
  induction m generalizing s with
  | zero => cases h; simp
  | succ m ih =>
    rw [Nat.succ_add]
    simp only [Host.Core.run] at h ⊢
    split at h <;> first | exact ih _ h | cases h

end Sys2Proof
end

