-- ==== Sys2Proof/Tests/Slice0.lean ====
section
/-! SUPPORT. The model's own tests: the refused ill-formed terms, words written out from the encodings of 30 R80 to R87, one
or two steps per instruction against the vectors of spec/95, and for every obligation with hypotheses a witness that meets
them (for each clause, at a boundary). -/

namespace Sys2Proof.Machine

/-! ## Small states -/

/-- The default part, in a window that does not start at 0. -/
def Config.sample : Config := { base := 0x40000, keyRamBytes := 1024, cryptoAvailable := true, rejectEmptyKey := false }

/-- An idle engine with something in every register. -/
def State.idle : State :=
  { State.resetOf Config.sample with
    key := [(0, 0x31#8), (3, 0x34#8)], keyLen := 4, counter := 0x0102030405060708#64, time := 1111111109#64
    trunc := 1284755224#31, code := 42#20, ascii := Vector.replicate 6 0x39#8, digest := Vector.replicate 20 0xFF#8
    op := 0x5#4, done := true }

/-- The same engine with a command outstanding. -/
def State.running (op : BitVec 4) : State := State.idle.acceptedWith op true

/-- A state with one input to come. -/
def State.facing (s : State) (i : Input) : State := { s with inputs := [i] }

/-- A full-width transaction at an offset of the sample part's window. -/
def at_ (off : Nat) (op : BusOp) : Input := accessAt Config.sample off op

/-- The next state passes the check. -/
def Result.passes (r : Result) (check : State → Bool) : Bool :=
  match r with
  | .next t => check t
  | .fault _ => false
  | .refused _ => false

/-- The completion of a command accepted by an idle engine passes the check. -/
def completes (i : Instr) (s : State) (check : State → Bool) : Bool :=
  Result.passes (exec i s) fun t => Result.passes (engineStep t) check

/-! ## Ill-formed terms are refused -/

theorem test_illegal_base : ¬Config.legal { Config.sample with base := 0x20004 } := by decide
theorem test_illegal_key_ram_alignment : ¬Config.legal { Config.sample with keyRamBytes := 1022 } := by decide
theorem test_illegal_key_ram_small : ¬Config.legal { Config.sample with keyRamBytes := 60 } := by decide
theorem test_illegal_key_ram_large : ¬Config.legal { Config.sample with keyRamBytes := 65540 } := by decide
theorem test_legal_standard : Config.standard.legal ∧ Config.sample.legal := by decide
theorem test_illformed_wr : Stmt.wellFormed (.wr 0x20000 0) = false := by decide
theorem test_illformed_rd : Stmt.wellFormed (.rd 0x20000) = false := by decide
theorem test_illformed_ldctr : Stmt.wellFormed (.ldctr (2 ^ 64)) = false := by decide
theorem test_illformed_ldtime : Stmt.wellFormed (.ldtime (2 ^ 64)) = false := by decide
theorem test_illformed_ldkey : Stmt.wellFormed (.ldkey (List.replicate 65537 0)) = false := by
  rw [Stmt.wellFormed, keyFitsWindow, List.length_replicate]
  decide
theorem test_wellformed_wr : Stmt.wellFormed (.wr 0x1FFFF 0) = true := by decide

/-! ## Decoding: words written out from 30 R80 (START bit 0, OP bits 7:4, IRQ_EN bit 8, SRST bit 31) -/

theorem test_decode_enc : decode 0b00000000000000000000000000010001#32 = .enc false := by decide
theorem test_decode_mac : decode 0b00000000000000000000000000100001#32 = .mac false := by decide
theorem test_decode_trunc : decode 0b00000000000000000000000000110001#32 = .trunc false := by decide
theorem test_decode_mod : decode 0b00000000000000000000000001000001#32 = .mod false := by decide
theorem test_decode_fmt : decode 0b00000000000000000000000001010001#32 = .fmt false := by decide
theorem test_decode_tstep : decode 0b00000000000000000000000001100001#32 = .tstep false := by decide
theorem test_decode_hotp_irq : decode 0b00000000000000000000000110000001#32 = .hotp true := by decide
theorem test_decode_totp : decode 0b00000000000000000000000010010001#32 = .totp false := by decide
theorem test_decode_srst : decode 0b10000000000000000000000000000000#32 = .srst 0 := by decide
theorem test_decode_cfg : decode 0b00000000000000000000000111110000#32 = .cfg true 0xF#4 := by decide
theorem test_decode_rsvdOp0 : decode 0b00000000000000000000000000000001#32 = .rsvdOp0 false := by decide
theorem test_decode_rsvdOp7 : decode 0b00000000000000000000000001110001#32 = .rsvdOp7 false := by decide
theorem test_decode_rsvdOpA : decode 0b00000000000000000000000010100001#32 = .rsvdOpA false := by decide
theorem test_decode_rsvdOpB : decode 0b00000000000000000000000010110001#32 = .rsvdOpB false := by decide
theorem test_decode_rsvdOpC : decode 0b00000000000000000000000011000001#32 = .rsvdOpC false := by decide
theorem test_decode_rsvdOpD : decode 0b00000000000000000000000011010001#32 = .rsvdOpD false := by decide
theorem test_decode_rsvdOpE : decode 0b00000000000000000000000011100001#32 = .rsvdOpE false := by decide
theorem test_decode_rsvdOpF : decode 0b00000000000000000000000111110001#32 = .rsvdOpF true := by decide

/-- SRST beats START (30 R81), and reserved bits change nothing (30 R86). -/
theorem test_decode_priority :
    decode 0x80000081#32 = .srst 0x81 ∧ decode 0x7FFFFE8F#32 = .hotp false := by decide

theorem test_table_word : decodeTableWord 32 0x181 = some (.hotp true) ∧ decodeTableWord 33 0 = none := by decide

/-- Placed after reset, the word is what the first step runs. -/
theorem test_first_step :
    Result.passes (step (State.reset.withFetchWord 32 0x181)) (fun t => t.busy && t.op == 0x8#4 && t.irqEn) = true := by
  decide

/-! ## The commands, against spec/95 -/

/-- E4. -/
theorem test_enc : completes (.enc false) State.idle
    (fun t => readReg t .msgHi == 0x01020304#32 && readReg t .msgLo == 0x05060708#32) = true := by decide

/-- T1: offset 10, 0x50EF7F19. -/
theorem test_trunc : completes (.trunc false)
    { State.idle with digest := #v[0x1f#8, 0x86#8, 0x98#8, 0x69#8, 0x0e#8, 0x02#8, 0xca#8, 0x16#8, 0x61#8, 0x85#8, 0x50#8,
        0xef#8, 0x7f#8, 0x19#8, 0xda#8, 0x8e#8, 0x94#8, 0x5b#8, 0x55#8, 0x5a#8] }
    (fun t => t.offset == 10 && readReg t .trunc == 0x50EF7F19#32) = true := by decide

/-- T3: the top offset, the top bit cleared. -/
theorem test_trunc_top : completes (.trunc false) State.idle
    (fun t => t.offset == 15 && readReg t .trunc == 0x7FFFFFFF#32) = true := by decide

/-- M5. -/
theorem test_mod : completes (.mod false) State.idle (fun t => readReg t .code == 0x000B8618#32) = true := by decide

/-- M4. -/
theorem test_mod_wraps : completes (.mod false) { State.idle with trunc := 1000000 }
    (fun t => readReg t .code == 0#32) = true := by decide

/-- F2, W4. -/
theorem test_fmt : completes (.fmt false) State.idle
    (fun t => readReg t .ascii0 == 0x30303030#32 && readReg t .ascii1 == 0x34320000#32) = true := by decide

/-- F6: the largest CODE. -/
theorem test_fmt_large : completes (.fmt false) { State.idle with code := 0xFFFFF }
    (fun t => readReg t .ascii0 == 0x30343835#32 && readReg t .ascii1 == 0x37350000#32) = true := by decide

/-- TS6. -/
theorem test_tstep : completes (.tstep false) State.idle
    (fun t => readReg t .counterHi == 0#32 && readReg t .counterLo == 0x023523EC#32) = true := by decide

/-- TS12. -/
theorem test_tstep_largest : completes (.tstep false) { State.idle with time := 0xFFFFFFFFFFFFFFFF#64 }
    (fun t => readReg t .counterHi == 0x08888888#32 && readReg t .counterLo == 0x88888888#32) = true := by decide

/-- L1: MAC under the empty key. -/
theorem test_mac : completes (.mac false) (State.resetOf Config.sample)
    (fun t => readReg t (.digest 0) == 0xDAB69AD9#32 && readReg t (.digest 4) == 0x73B2A297#32) = true := by
  decide +kernel

/-- L7: a key longer than the key RAM; the outputs are cleared. -/
theorem test_mac_key_import : completes (.mac false) { State.idle with keyLen := 0x401 }
    (fun t => readReg t .status == 0x00000036#32 && readReg t (.digest 0) == 0 && readReg t .ascii0 == 0) = true := by
  decide

/-- P8a: HOTP under the empty key, counter 0. -/
theorem test_hotp : completes (.hotp false) (State.resetOf Config.sample)
    (fun t => readReg t .code == 0x00050322#32 && readReg t .ascii0 == 0x33323834#32 &&
      readReg t .ascii1 == 0x38320000#32) = true := by decide +kernel

/-- L8: an empty key where the part rejects it. -/
theorem test_hotp_empty_rejected :
    completes (.hotp false) (State.resetOf { Config.sample with rejectEmptyKey := true })
      (fun t => readReg t .status == 0x00000036#32 && readReg t .ascii0 == 0) = true := by decide

/-- P8a's code again, at the last second of the first window (42 R165). -/
theorem test_totp : completes (.totp false) { State.resetOf Config.sample with time := 29 }
    (fun t => t.counter == 0 && readReg t .ascii0 == 0x33323834#32) = true := by decide +kernel

/-- LC10: UNAVAILABLE leaves COUNTER. -/
theorem test_totp_unavailable :
    completes (.totp false) { State.idle with cfg := { Config.sample with cryptoAvailable := false } }
      (fun t => readReg t .status == 0x00000026#32 && t.counter == State.idle.counter) = true := by decide

/-- LC13: a soft reset, here of a running engine (P6). -/
theorem test_srst : Result.passes (exec (.srst 0) (State.running 0x8#4))
    (fun t => readReg t .status == 0 && readReg t .keyLen == 0 && t.key == []) = true := by decide

/-- LC14. -/
theorem test_cfg : Result.passes (exec (.cfg true 0x0#4) State.idle)
    (fun t => readReg t .ctrl == 0x00000100#32 && readReg t .status == 0x00000002#32) = true := by decide

/-- LC6: a second START is dropped. -/
theorem test_enc_busy : Result.passes (exec (.enc false) (State.running 0x8#4))
    (fun t => readReg t .status == 0x00000101#32 && t.pending == 0x8#4) = true := by decide

/-- LC9. -/
theorem test_rsvdOp0 : completes (.rsvdOp0 false) State.idle (fun t => readReg t .status == 0x16#32) = true := by decide
/-- LC8: no data register changes. -/
theorem test_rsvdOp7 : completes (.rsvdOp7 false) State.idle
    (fun t => readReg t .status == 0x16#32 && t.digest == State.idle.digest && t.ascii == State.idle.ascii) = true := by
  decide
theorem test_rsvdOpA : completes (.rsvdOpA false) State.idle (fun t => readReg t .status == 0x16#32) = true := by decide
theorem test_rsvdOpB : completes (.rsvdOpB false) State.idle (fun t => readReg t .status == 0x16#32) = true := by decide
theorem test_rsvdOpC : completes (.rsvdOpC false) State.idle (fun t => readReg t .status == 0x16#32) = true := by decide
theorem test_rsvdOpD : completes (.rsvdOpD false) State.idle (fun t => readReg t .status == 0x16#32) = true := by decide
theorem test_rsvdOpE : completes (.rsvdOpE false) State.idle (fun t => readReg t .status == 0x16#32) = true := by decide
theorem test_rsvdOpF : completes (.rsvdOpF false) State.idle (fun t => readReg t .status == 0x16#32) = true := by decide

/-! ## The bus, against spec/95 -/

/-- BU1, BU2. -/
theorem test_read_id : Result.passes (step (State.idle.facing (at_ 0x000 .read)))
    (fun t => t.reply == some (.okRead 0x4F545031#32)) = true := by decide
theorem test_read_hwcfg : Result.passes (step (State.idle.facing (at_ 0x00C .read)))
    (fun t => t.reply == some (.okRead 0x00010100#32)) = true := by decide
/-- BU3, BU4, BU9. -/
theorem test_reserved_offset : Result.passes (step (State.idle.facing (at_ 0x014 .read)))
    (fun t => t.reply == some .busError) = true := by decide
theorem test_misaligned : Result.passes (step (State.idle.facing (at_ 0x031 (.write 0))))
    (fun t => t == { State.idle with reply := some .busError }) = true := by decide
theorem test_past_key_ram : Result.passes (step (State.idle.facing (at_ 0x10400 (.write 1))))
    (fun t => t == { State.idle with reply := some .busError }) = true := by decide
/-- BU5. -/
theorem test_key_reads_zero : Result.passes (step (State.idle.facing (at_ 0x10000 .read)))
    (fun t => t.reply == some (.okRead 0)) = true := by decide
/-- BU6, BU7, BU8. -/
theorem test_write_trunc : Result.passes (step (State.idle.facing (at_ 0x048 (.write 0xFFFFFFFF#32))))
    (fun t => readReg t .trunc == 0x7FFFFFFF#32) = true := by decide
theorem test_write_code : Result.passes (step (State.idle.facing (at_ 0x04C (.write 0xFFFFFFFF#32))))
    (fun t => readReg t .code == 0x000FFFFF#32) = true := by decide
theorem test_write_offset_ignored : Result.passes (step (State.idle.facing (at_ 0x044 (.write 5))))
    (fun t => readReg t .offset == 0 && t.reply == some .okWrite) = true := by decide
/-- LC5, LC7, BU10. -/
theorem test_write_busy : Result.passes (step ((State.running 0x8#4).facing (at_ 0x01C (.write 5))))
    (fun t => readReg t .status == 0x00000101#32 && t.counter == State.idle.counter) = true := by decide
theorem test_clear_ovr_busy :
    Result.passes (step ({ State.running 0x8#4 with ovr := true }.facing (at_ 0x008 (.write 0x103#32))))
      (fun t => readReg t .status == 0x00000001#32) = true := by decide
/-- P1's first word: byte 0 in bits 31:24. -/
theorem test_write_key : Result.passes (step ((State.resetOf Config.sample).facing (at_ 0x10000 (.write 0x31323334#32))))
    (fun t => t.key == [(0, 0x31#8), (1, 0x32#8), (2, 0x33#8), (3, 0x34#8)]) = true := by decide

/-- P1's `LDKEY`, by its first word and the key length; 70 R217's UTF-8. -/
theorem test_ldkey_text :
    utf8Bytes "1234567890" = [0x31#8, 0x32#8, 0x33#8, 0x34#8, 0x35#8, 0x36#8, 0x37#8, 0x38#8, 0x39#8, 0x30#8] ∧
    utf8Bytes "é" = [0xC3#8, 0xA9#8] := by decide

/-- P5's padding word and length, for a key of five bytes. -/
theorem test_ldkey_padding :
    (match expandStmt Config.standard (.ldkey (List.replicate 5 0x41#8)) with
      | .next arriving => arriving == [writeAt Config.standard 0x10000 0x41414141#32,
          writeAt Config.standard 0x10004 0x41000000#32, writeAt Config.standard 0x010 5]
      | _ => false) = true := by decide

/-- The padding of "abc" (spec/95 2.1). -/
theorem test_padding : shaPad [0x61#8, 0x62#8, 0x63#8] =
    [0x61#8, 0x62#8, 0x63#8, 0x80#8] ++ List.replicate 52 0x00#8 ++
      [0x00#8, 0x00#8, 0x00#8, 0x00#8, 0x00#8, 0x00#8, 0x00#8, 0x18#8] := by decide

/-! ## Witnesses: the hypotheses of the obligations can be met -/

theorem witness_ReservedCtrlBitsChangeNothing :
    0x00000011#32 &&& 0x800001F1#32 = 0x7FFFFE1F#32 &&& 0x800001F1#32 ∧
    (0x80000000#32).getLsbD 31 = true ∧ (0xFFFFFFFF#32).getLsbD 31 = true := by decide

theorem witness_StepRunsTheDecodedInstruction :
    (State.idle.facing (at_ 0x004 (.write 0x181#32))).inReset = false ∧
    (State.idle.facing (at_ 0x004 (.write 0x181#32))).inputs =
      .bus { addr := State.idle.cfg.base + 0x004, lanes := 0xF#4, op := .write 0x181#32 } :: [] ∧
    decodeTableWord 32 0xFFFFFFFF = some (.srst 0x7FFFFFFF) ∧ decodeTableWord 0 7 = some (.cfg false 0x0#4) := by decide

theorem witness_EngineTurnCompletesThePendingCommand :
    ((State.running 0x1#4).inputs = [] ∧ (State.running 0x1#4).busy = true ∧ (State.running 0x1#4).inReset = false) ∧
    (((State.running 0xF#4).facing .engine).inputs = .engine :: [] ∧ ((State.running 0xF#4).facing .engine).busy = true) ∧
    (State.idle.inputs = [] ∧ State.idle.busy = false) ∧
    ({ (State.running 0x1#4).facing .engine with inReset := true }.inReset = true) := by decide

theorem witness_BadAccessAnswersBusErrorAndChangesNothing :
    State.idle.inReset = false ∧ (State.idle.facing (at_ 0x1FFFF .read)).inputs = at_ 0x1FFFF .read :: [] ∧
    0x1FFFF < windowBytes ∧ 0x1FFFF % 4 ≠ 0 ∧ 0x7#4 ≠ 0xF#4 ∧
    reservedOffset Config.sample 0x014 ∧ reservedOffset Config.sample 0x058 ∧ reservedOffset Config.sample 0xFFFC ∧
    reservedOffset Config.sample 0x10400 ∧ reservedOffset Config.sample 0x1FFFC ∧
    ¬reservedOffset Config.sample 0x010 ∧ ¬reservedOffset Config.sample 0x054 ∧ ¬reservedOffset Config.sample 0x10000 ∧
    ¬reservedOffset Config.sample 0x103FC := by decide

theorem witness_ReadsChangeNoState :
    0 < windowBytes ∧ 0x1FFFF < windowBytes ∧ State.idle.inReset = false ∧
    (State.idle.facing (at_ 0x1FFFF .read)).inputs =
      .bus { addr := State.idle.cfg.base + 0x1FFFF, lanes := 0xF#4, op := .read } :: [] := by decide

theorem witness_MappedReadAnswersItsRegister :
    State.idle.inReset = false ∧ State.idle.cfg.keyRamBytes ≤ 65536 ∧
    (0x000, Reg.id) ∈ registerOffsets ∧ (0x054, Reg.ascii1) ∈ registerOffsets ∧
    (State.idle.facing (at_ 0x054 .read)).inputs =
      .bus { addr := State.idle.cfg.base + 0x054, lanes := 0xF#4, op := .read } :: [] ∧
    4 * 255 < State.idle.cfg.keyRamBytes ∧
    (State.idle.facing (at_ 0x103FC .read)).inputs =
      .bus { addr := State.idle.cfg.base + (0x10000 + 4 * 255), lanes := 0xF#4, op := .read } :: [] := by decide

theorem witness_IdCtrlAndHwcfgReadTheirFields :
    State.idle.cfg.keyRamBytes ≤ 65536 ∧ { Config.sample with keyRamBytes := 65536 }.legal := by decide

theorem witness_NoReadDependsOnTheKey :
    0x10000 < windowBytes ∧ State.idle.inReset = false ∧
    (State.idle.facing (at_ 0x10000 .read)).inputs =
      .bus { addr := State.idle.cfg.base + 0x10000, lanes := 0xF#4, op := .read } :: [] := by decide

theorem witness_IdleRegisterWriteStoresAndReadsBack :
    (0x040, Reg.digest 4) ∈ registerOffsets ∧ (0x054, Reg.ascii1) ∈ registerOffsets ∧ Reg.digest 4 ≠ .ctrl ∧ Reg.digest 4 ≠ .status ∧ hostWritable (.digest 4) = true ∧ hostWritable .ascii1 = false ∧
    State.idle.busy = false ∧ State.idle.inReset = false ∧
    (State.idle.facing (at_ 0x040 (.write 7))).inputs =
      .bus { addr := State.idle.cfg.base + 0x040, lanes := 0xF#4, op := .write 7 } :: [] := by decide

theorem witness_IdleKeyWriteStoresFourBytes :
    (State.idle.facing (at_ 0x103FC (.write 7))).inv ∧ 4 * 255 < State.idle.cfg.keyRamBytes ∧
    ¬4 * 256 < State.idle.cfg.keyRamBytes ∧ State.idle.busy = false ∧ State.idle.inReset = false ∧
    (State.idle.facing (at_ 0x103FC (.write 7))).inputs =
      .bus { addr := State.idle.cfg.base + (0x10000 + 4 * 255), lanes := 0xF#4, op := .write 7 } :: [] := by decide

theorem witness_WritesWhileBusyAreDropped :
    (State.running 0x8#4).busy = true ∧ (State.running 0x8#4).inReset = false ∧
    (State.running 0x8#4).cfg.keyRamBytes ≤ 65536 ∧ (0x004, Reg.ctrl) ∈ registerOffsets ∧
    (0x054, Reg.ascii1) ∈ registerOffsets ∧ Reg.ctrl ≠ .status ∧ (0x7FFFFFFF#32).getLsbD 31 = false ∧
    (0x80000000#32).getLsbD 31 = true ∧ 4 * 255 < (State.running 0x8#4).cfg.keyRamBytes ∧
    ((State.running 0x8#4).facing (at_ 0x008 (.write 0x100))).inputs =
      .bus { addr := (State.running 0x8#4).cfg.base + 0x008, lanes := 0xF#4, op := .write 0x100 } :: [] := by decide

theorem witness_IdleStatusWriteAcknowledges :
    State.idle.busy = false ∧ State.idle.inReset = false ∧
    (State.idle.facing (at_ 0x008 (.write 0x106))).inputs =
      .bus { addr := State.idle.cfg.base + 0x008, lanes := 0xF#4, op := .write 0x106 } :: [] := by decide

theorem witness_RegistersHoldWhileBusy :
    ∃ t, step ((State.running 0x8#4).facing (at_ 0x01C (.write 5))) = .next t ∧
      (State.running 0x8#4).busy = true ∧ t.busy = true := ⟨_, rfl, by decide, by decide⟩

theorem witness_HardwareResetLeavesTheResetState :
    { State.running 0x8#4 with inputs := [.resetAssert, .resetRelease] }.inputs = .resetAssert :: .resetRelease :: [] := by
  decide

theorem witness_NothingMovesWhileResetIsAsserted :
    { State.idle with inReset := true }.inReset = true ∧
    (State.idle.facing (at_ 0x004 (.write 0x11))).inputs = at_ 0x004 (.write 0x11) :: [] ∧
    at_ 0x004 (.write 0x11) ≠ .resetAssert ∧ at_ 0x004 (.write 0x11) ≠ .resetRelease ∧
    Input.waitDone ≠ .resetAssert ∧ Input.engine ≠ .resetRelease := by decide

theorem witness_RegistersReadTheirResetValues : Reg.ctrl ≠ .id ∧ Reg.ascii1 ≠ .hwcfg := by decide

/-- The hypotheses of EncWritesTheBigEndianCounter, TruncSelectsTheWindow, ModReducesModuloAMillion, FmtRendersSixDigits,
TstepDividesTheTime, ConfigurationWriteStoresOpAndIrqEn and ReservedOpsCompleteWithBadOp. -/
theorem witness_idle : State.idle.busy = false ∧ State.idle.inReset = false := by decide

/-- The hypotheses of MacWritesTheHmac, HotpRunsItsFiveStages, TotpRunsTheTimeStepThenHotp, HotpEqualsItsStagesAsCommands
and TotpEqualsTstepThenHotp: a key of 4 bytes, one that fills the key RAM, an empty one. -/
theorem witness_keyUsable :
    State.idle.busy = false ∧ State.idle.inReset = false ∧ State.idle.keyUsable ∧
    { State.idle with keyLen := 1024 }.keyUsable ∧ { State.idle with keyLen := 0 }.keyUsable := by decide

theorem witness_FailedKeyCheckClearsTheOutputs :
    State.idle.busy = false ∧ State.idle.inReset = false ∧ ¬{ State.idle with keyLen := 1025 }.keyUsable ∧
    ¬{ State.idle with cfg := { Config.sample with cryptoAvailable := false } }.keyUsable ∧
    ¬{ State.idle with keyLen := 0, cfg := { Config.sample with rejectEmptyKey := true } }.keyUsable := by decide

theorem witness_InstructionsWhileBusyAreDropped :
    (∀ ignored, Instr.cfg true 0x0#4 ≠ .srst ignored) ∧ (State.running 0x1#4).busy = true :=
  ⟨fun _ => nofun, rfl⟩

/-- Another engine with the same key below KEY_LEN and another byte past it. -/
def State.stale (op : BitVec 4) : State :=
  { State.running op with key := [(0, 0x31#8), (3, 0x34#8), (4, 0x77#8)] }

theorem witness_SameTimeWindowSameCode :
    let s := { State.running 0x9#4 with time := 30 }
    let t := { State.stale 0x9#4 with time := 59 }
    s.busy = true ∧ t.busy = true ∧ s.inReset = false ∧ t.inReset = false ∧ s.pending = 0x9#4 ∧ t.pending = 0x9#4 ∧
      s.cfg = t.cfg ∧ sameKey s t ∧ s.key ≠ t.key ∧ s.time.toNat / 30 = t.time.toNat / 30 := by decide

theorem witness_MacDependsOnKeyAndMessageOnly :
    let s := State.running 0x2#4
    let t := { State.stale 0x2#4 with counter := 9 }
    s.busy = true ∧ t.busy = true ∧ s.inReset = false ∧ t.inReset = false ∧ s.pending = 0x2#4 ∧ t.pending = 0x2#4 ∧
      s.cfg = t.cfg ∧ sameKey s t ∧ s.msg = t.msg := by decide

theorem witness_OtpOutputsAreDetermined :
    let s := State.running 0x8#4
    let t := { State.stale 0x8#4 with time := 9 }
    let u := State.running 0x9#4
    let v := { State.stale 0x9#4 with counter := 9 }
    (s.busy = true ∧ t.busy = true ∧ s.inReset = false ∧ t.inReset = false ∧ s.pending = t.pending ∧ s.cfg = t.cfg ∧
      sameKey s t ∧ s.pending = 0x8#4 ∧ s.counter = t.counter) ∧
    (u.busy = true ∧ v.busy = true ∧ u.inReset = false ∧ v.inReset = false ∧ u.pending = v.pending ∧ u.cfg = v.cfg ∧
      sameKey u v ∧ u.pending = 0x9#4 ∧ u.time = v.time) := by decide

/-- Both clauses: a code, and an error. -/
theorem witness_OtpFormatInvariant :
    (State.running 0x8#4).busy = true ∧ (State.running 0x8#4).inReset = false ∧ (State.running 0x8#4).pending = 0x8#4 ∧
    (State.running 0x9#4).pending = 0x9#4 ∧
    Result.passes (engineStep { State.running 0x9#4 with keyLen := 1025 }) (fun t => t.errcode != 0) = true := by decide

theorem witness_OtpFormatInvariant_code :
    Result.passes (engineStep { State.running 0x8#4 with keyLen := 0 }) (fun t => t.errcode == 0) = true := by
  decide +kernel

theorem witness_TruncationWindowBounds :
    (0xA5#8).toNat % 16 = (Vector.replicate 20 0x05#8)[19].toNat % 16 := by decide

theorem witness_EveryStepKeepsTheFlagInvariants :
    ∃ t, (State.running 0xF#4).flagsOk ∧ (State.running 0xF#4).pendingOk ∧ step (State.running 0xF#4) = .next t :=
  ⟨_, by decide, by decide, rfl⟩

theorem witness_EveryStepKeepsTheKeyRamForm :
    (State.idle.facing (at_ 0x103FC (.write 7))).cfg.legal ∧ (State.idle.facing (at_ 0x103FC (.write 7))).keyOk ∧
    Result.passes (step (State.idle.facing (at_ 0x103FC (.write 7))))
      (fun t => t.key == [(0, 0x31#8), (3, 0x34#8), (1023, 0x07#8)]) = true := by decide

theorem witness_ResetMeetsTheInvariants : Config.standard.legal := by decide

theorem witness_EveryAcceptedCommandCompletes :
    (State.running 0x1#4).busy = true ∧ (State.running 0x1#4).inReset = false ∧ (State.running 0x1#4).inputs = [] ∧
    ((State.running 0x1#4).facing .engine).inputs = .engine :: [] := by decide

/-- Each clause that can be met without the hash: TSTEP writes COUNTER, ENC MSG, TRUNC OFFSET and TRUNC, MOD CODE, FMT ASCII,
a failed MAC DIGEST, CODE and ASCII, and a reserved code is answered. -/
theorem witness_WritersOfEachElement :
    (State.running 0x6#4).busy = true ∧ (State.running 0x6#4).inReset = false ∧
    Result.passes (engineStep (State.running 0x6#4)) (fun t => t.counter != State.idle.counter) = true ∧
    Result.passes (engineStep (State.running 0x1#4)) (fun t => t.msg != State.idle.msg) = true ∧
    Result.passes (engineStep (State.running 0x3#4))
      (fun t => t.offset != State.idle.offset && t.trunc != State.idle.trunc) = true ∧
    Result.passes (engineStep (State.running 0x4#4)) (fun t => t.code != State.idle.code) = true ∧
    Result.passes (engineStep (State.running 0x5#4)) (fun t => t.ascii != State.idle.ascii) = true ∧
    Result.passes (engineStep { State.running 0x2#4 with keyLen := 1025 })
      (fun t => t.digest != State.idle.digest && t.code != State.idle.code && t.ascii != State.idle.ascii) = true ∧
    isReservedOp (State.running 0xF#4).pending ∧
    Result.passes (engineStep (State.running 0xF#4)) (fun _ => true) = true := by decide

/-- The three ways: a key write, a soft reset, the reset input. -/
theorem witness_OnlyHostWritesAndResetsChangeTheKey :
    Result.passes (step (State.idle.facing (at_ 0x103FC (.write 7)))) (fun t => t.key != State.idle.key) = true ∧
    Result.passes (step (State.idle.facing (at_ 0x004 (.write 0x80000000)))) (fun t => t.key != State.idle.key) = true ∧
    Result.passes (step (State.idle.facing .resetAssert)) (fun t => t.key != State.idle.key) = true := by decide

/-- Both ways: a completion, and the enable over a DONE already set. -/
theorem witness_IrqRisesOnlyByCompletionOrEnable :
    (State.running 0xF#4).irq = false ∧
    Result.passes (step (State.running 0xF#4)) (fun t => t.irq) = true ∧ State.idle.irq = false ∧
    Result.passes (step (State.idle.facing (at_ 0x004 (.write 0x100)))) (fun t => t.irq) = true := by decide

theorem witness_WaitDoneEnds :
    ((State.running 0x1#4).facing .waitDone).flagsOk ∧ (State.running 0x1#4).busy = true ∧
    (State.running 0x1#4).inReset = false ∧ ((State.running 0x1#4).facing .waitDone).inputs = .waitDone :: [] := by decide

theorem witness_LoadStatementsLoadSixtyFourBits :
    2 ^ 64 ≤ 2 ^ 64 ∧ 2 ^ 64 - 1 < 2 ^ 64 ∧ State.idle.cfg = Config.sample ∧ State.idle.busy = false ∧
    State.idle.inReset = false := by decide

/-- Each clause: an idle engine, a busy one, `irq` already 1, and a command with IRQ_EN outstanding. -/
theorem witness_OtherPseudoInstructionsLeaveTheirEffects :
    State.idle.inReset = false ∧ State.idle.busy = false ∧ (State.running 0x1#4).inReset = false ∧
    ({ State.idle with irqEn := true }.facing .waitIrq).irq = true ∧
    ({ State.idle with irqEn := true }.facing .waitIrq).inputs = .waitIrq :: [] ∧
    ((State.running 0x1#4).facing .waitIrq).inputs = .waitIrq :: [] ∧ ((State.running 0x1#4).facing .waitIrq).flagsOk ∧
    (State.running 0x1#4).busy = true ∧ (State.running 0x1#4).irqEn = true := by decide

/-- A key of one byte (its word has padding bytes), the empty key, and one that fills the key RAM. -/
theorem witness_LdkeyLoadsTheKey :
    State.idle.inv ∧ State.idle.busy = false ∧ State.idle.inReset = false ∧
    [0x41#8].length ≤ State.idle.cfg.keyRamBytes ∧ [0x41#8].length ≤ 3 ∧ 3 < 4 * (([0x41#8].length + 3) / 4) ∧
    ([] : List Byte).length ≤ State.idle.cfg.keyRamBytes ∧ (List.replicate 1024 0x41#8).length ≤ State.idle.cfg.keyRamBytes := by
  refine ⟨by decide, by decide, by decide, by decide, by decide, by decide, by decide, ?_⟩
  rw [List.length_replicate]
  decide

theorem witness_BootSequenceYieldsTheHotpCode :
    State.idle.inv ∧ State.idle.busy = false ∧ State.idle.inReset = false ∧ State.idle.inputs = [] ∧
    [0x41#8].length ≤ State.idle.cfg.keyRamBytes ∧ 2 ^ 64 - 1 < 2 ^ 64 ∧ State.idle.cfg.cryptoAvailable = true ∧
    [0x41#8] ≠ [] ∧ State.idle.cfg.rejectEmptyKey = false := by decide

theorem witness_MessageScheduleRecurrence : (List.replicate 64 0x41#8).length = 64 := by decide

theorem witness_PaddingFillsWholeBlocks :
    (List.replicate 55 0x61#8).length ≤ 55 ∧ 56 ≤ (List.replicate 56 0x61#8).length ∧
    (List.replicate 119 0x61#8).length ≤ 119 := by decide

theorem witness_HmacKeyBlockAndInputs :
    (List.replicate 8 0x00#8).length = 8 ∧ (List.replicate 64 0x41#8).length ≤ 64 ∧
    64 < (List.replicate 65 0x41#8).length := by decide

end Sys2Proof.Machine
end

section
/-! PROOFS. The statements about the state elements (10_state.md): what a host write and a completion leave, the
invariants every step keeps, and what each register reads. -/

namespace Sys2Proof.Machine

/-! ## What a mapped host write leaves -/

/-- The states a mapped host write can leave, one constructor per rule, guards included (20 R61, 30 R81, 10 R27,
60 R184, R190). -/
inductive HostWrite (tgt : Target) (v : Word) (s : State) : State → Prop
  | softReset (ht : tgt = .reg .ctrl) (hs : ctrlSrst v = true) : HostWrite tgt v s (resetState s)
  | dropped (hb : s.busy = true) (ht : tgt ≠ .reg .status) (hs : tgt = .reg .ctrl → ctrlSrst v = false) :
      HostWrite tgt v s (dropWrite s)
  | accepted (hb : s.busy = false) (ht : tgt = .reg .ctrl) (hs : ctrlSrst v = false) (hc : ctrlStart v = true) :
      HostWrite tgt v s (accept (ctrlOp v) (ctrlIrqEn v) s)
  | configured (hb : s.busy = false) (ht : tgt = .reg .ctrl) (hs : ctrlSrst v = false) (hc : ctrlStart v = false) :
      HostWrite tgt v s (configure (ctrlIrqEn v) (ctrlOp v) s)
  | ovrCleared (hb : s.busy = true) (ht : tgt = .reg .status) : HostWrite tgt v s (clearOvr v s)
  | acknowledged (hb : s.busy = false) (ht : tgt = .reg .status) : HostWrite tgt v s (acknowledge v s)
  | stored (hb : s.busy = false) (hc : tgt ≠ .reg .ctrl) (hs : tgt ≠ .reg .status) :
      HostWrite tgt v s (writeTarget s v tgt)

/-- Every mapped write is one of them. -/
theorem hostWrite_of_busWrite {tgt : Target} {v : Word} {s t : State} (h : busWrite tgt v s = .next t) :
    HostWrite tgt v s t := by
  rcases busWrite_cases tgt v s with ⟨ht, e⟩ | ⟨ht, e⟩ | ⟨hc, hs, e⟩
  · rw [e, exec_decode] at h
    cases h
    split_ifs with hr hb hg
    · exact .softReset ht hr
    · exact .dropped hb (by simp [ht]) fun _ => by simpa using hr
    · exact .accepted (by simpa using hb) ht (by simpa using hr) hg
    · exact .configured (by simpa using hb) ht (by simpa using hr) (by simpa using hg)
  · rw [e] at h
    cases h
    split_ifs with hb
    · exact .ovrCleared hb ht
    · exact .acknowledged (by simpa using hb) ht
  · rw [e] at h
    cases h
    split_ifs with hb
    · exact .dropped hb hs fun ht => absurd ht hc
    · exact .stored (by simpa using hb) hc hs

/-! ## What the completion step leaves -/

/-- The states the completion step can leave, one constructor per row of the opcode table that completes with success,
one for a failed key check and one for the reserved codes (60 R185 to R187). -/
inductive Completion (s : State) : State → Prop
  | enc (hp : s.pending = 0x1#4) : Completion s (succeed (encStage s))
  | mac (hp : s.pending = 0x2#4) (hk : cryptoCheck s = 0) : Completion s (succeed (macStage s))
  | trunc (hp : s.pending = 0x3#4) : Completion s (succeed (truncStage s))
  | mod (hp : s.pending = 0x4#4) : Completion s (succeed (modStage s))
  | fmt (hp : s.pending = 0x5#4) : Completion s (succeed (fmtStage s))
  | tstep (hp : s.pending = 0x6#4) : Completion s (succeed (tstepStage s))
  | hotp (hp : s.pending = 0x8#4) (hk : cryptoCheck s = 0) : Completion s (succeed (hotpStages s))
  | totp (hp : s.pending = 0x9#4) (hk : cryptoCheck s = 0) : Completion s (succeed (totpStages s))
  | keyCheckFailed (hp : usesKey s.pending) (hk : cryptoCheck s = unavailable ∨ cryptoCheck s = keyImport) :
      Completion s (failWith (cryptoCheck s) (clearOutputs s))
  | reserved (hp : isReservedOp s.pending) : Completion s (failWith badOp s)

/-- Every completion step is one of them. -/
theorem completion_of_completePending {s t : State} (h : completePending s = .next t) : Completion s t := by
  obtain ⟨t', e, hc⟩ := completePending_cases s
  obtain rfl : t' = t := by simpa [e] using h
  rcases hc with ⟨hp, rfl⟩ | ⟨hp, hk, rfl⟩ | ⟨hp, rfl⟩ | ⟨hp, rfl⟩ | ⟨hp, rfl⟩ | ⟨hp, rfl⟩ | ⟨hp, hk, rfl⟩ |
    ⟨hp, hk, rfl⟩ | ⟨hp, hk, rfl⟩ | ⟨hp, rfl⟩
  · exact .enc hp
  · exact .mac hp hk
  · exact .trunc hp
  · exact .mod hp
  · exact .fmt hp
  · exact .tstep hp
  · exact .hotp hp hk
  · exact .totp hp hk
  · exact .keyCheckFailed hp hk
  · exact .reserved hp

/-- The completion step leaves the key, the host's own registers, the pending code and the model's own fields
(10 R44). -/
theorem completion_frame {s t : State} (h : Completion s t) :
    (t.key = s.key ∧ t.keyLen = s.keyLen ∧ t.time = s.time ∧ t.op = s.op ∧ t.irqEn = s.irqEn ∧ t.ovr = s.ovr) ∧
      t.pending = s.pending ∧ t.cfg = s.cfg ∧ t.inputs = s.inputs ∧ t.reply = s.reply ∧ t.inReset = s.inReset := by
  cases h <;> simp [hotpStages, totpStages]

/-- STATUS after the completion step: idle and done, with no error or with one of the three codes (60 R181, R186,
R187). -/
theorem completion_status {s t : State} (h : Completion s t) :
    t.busy = false ∧ t.done = true ∧
      ((t.err = false ∧ t.errcode = 0) ∨ (t.err = true ∧ (t.errcode = 1 ∨ t.errcode = 2 ∨ t.errcode = 3))) := by
  cases h with
  | keyCheckFailed _ hk => exact ⟨rfl, rfl, .inr ⟨rfl, .inr hk⟩⟩
  | reserved => exact ⟨rfl, rfl, .inr ⟨rfl, .inl rfl⟩⟩
  | _ => exact ⟨rfl, rfl, .inl ⟨rfl, rfl⟩⟩

/-! ## The flag invariants (10 R40, R42) -/

/-- An idle engine's flag invariants are about ERR and ERRCODE alone. -/
theorem flagsOk_of_idle {s t : State} (hb : t.busy = false) (he : t.err = s.err) (hc : t.errcode = s.errcode)
    (h : s.flagsOk) : t.flagsOk := by
  rw [State.flagsOk, hb, he, hc]
  exact ⟨nofun, h.2⟩

/-- An idle engine has no outstanding command. -/
theorem pendingOk_of_idle {s : State} (hb : s.busy = false) : s.pendingOk := fun h => by simp [hb] at h

/-- A write stored in the key RAM or a register other than STATUS leaves BUSY, ERR and ERRCODE. -/
theorem writeTarget_status (s : State) (v : Word) {tgt : Target} (hs : tgt ≠ .reg .status) :
    (writeTarget s v tgt).busy = s.busy ∧ (writeTarget s v tgt).err = s.err ∧
      (writeTarget s v tgt).errcode = s.errcode := by
  cases tgt with
  | keyWord j => exact ⟨rfl, rfl, rfl⟩
  | reg r =>
    cases r with
    | status => exact absurd rfl hs
    | _ => exact ⟨rfl, rfl, rfl⟩

/-- The acknowledgement clears ERR and ERRCODE together, or neither (60 R191). -/
theorem acknowledge_flagsOk {s : State} (v : Word) (hb : s.busy = false) (h : s.flagsOk) :
    (acknowledge v s).flagsOk := by
  cases hv : v.getLsbD 2
  · exact flagsOk_of_idle hb (by rw [acknowledge_err, hv, Bool.not_false, Bool.and_true])
      (by rw [acknowledge_errcode, hv, if_neg Bool.false_ne_true]) h
  · simp [State.flagsOk, hb, hv]

/-- A host write keeps the flag invariants and the pending code's. -/
theorem hostWrite_flags {tgt : Target} {v : Word} {s t : State} (h : HostWrite tgt v s t) (hf : s.flagsOk)
    (hp : s.pendingOk) : t.flagsOk ∧ t.pendingOk := by
  cases h with
  | softReset => exact ⟨by simp [State.flagsOk], pendingOk_of_idle rfl⟩
  | dropped => exact ⟨hf, hp⟩
  | accepted => exact ⟨by simp [State.flagsOk], fun _ => rfl⟩
  | configured hb => exact ⟨hf, pendingOk_of_idle hb⟩
  | ovrCleared => exact ⟨hf, hp⟩
  | acknowledged hb => exact ⟨acknowledge_flagsOk v hb hf, pendingOk_of_idle hb⟩
  | stored hb _ hs =>
    obtain ⟨eb, ee, ec⟩ := writeTarget_status s v hs
    exact ⟨flagsOk_of_idle (eb.trans hb) ee ec hf, pendingOk_of_idle (eb.trans hb)⟩

/-- A completion establishes them, whatever stood before. -/
theorem completion_flags {s t : State} (h : Completion s t) : t.flagsOk ∧ t.pendingOk := by
  obtain ⟨hb, _, he⟩ := completion_status h
  refine ⟨?_, pendingOk_of_idle hb⟩
  rcases he with ⟨he, hc⟩ | ⟨he, hc⟩
  · rw [State.flagsOk, hb, he]
    exact ⟨nofun, fun _ => hc, nofun⟩
  · rw [State.flagsOk, hb, he]
    exact ⟨nofun, nofun, fun _ => hc⟩

/-- Settles O43, along the inversion of `step`: a completion leaves the engine idle with a code that ERR agrees with, a
host write is judged rule by rule, and the reset states are idle without an error. -/
theorem everyStepKeepsTheFlagInvariants : Obligations.EveryStepKeepsTheFlagInvariants := by
  intro s t hf hp h
  rcases step_cases h with ⟨rest, reply, rfl⟩ | ⟨rest, _, _, hc⟩ | ⟨a, rest, off, tgt, v, _, _, _, _, _, hw⟩ |
    ⟨rest, _, rfl⟩ | ⟨rest, _, _, rfl⟩
  · exact ⟨hf, hp⟩
  · exact completion_flags (completion_of_completePending hc)
  · exact hostWrite_flags (hostWrite_of_busWrite hw) hf hp
  · exact ⟨by simp [State.flagsOk], pendingOk_of_idle rfl⟩
  · exact ⟨by simp [State.flagsOk], pendingOk_of_idle rfl⟩

/-! ## The part and the key RAM (10 R28, R39) -/

/-- A stored write leaves the part's parameters. -/
theorem writeTarget_cfg (s : State) (v : Word) (tgt : Target) : (writeTarget s v tgt).cfg = s.cfg := by
  cases tgt with
  | keyWord j => rfl
  | reg r =>
    obtain ⟨_, _, _, hcfg, _⟩ := writeReg_frame s v r
    exact hcfg

theorem hostWrite_cfg {tgt : Target} {v : Word} {s t : State} (h : HostWrite tgt v s t) : t.cfg = s.cfg := by
  cases h with
  | stored => exact writeTarget_cfg s v tgt
  | _ => rfl

/-- A host write leaves the key RAM, clears it, or writes one of its words. -/
theorem hostWrite_key {tgt : Target} {v : Word} {s t : State} (h : HostWrite tgt v s t) :
    t.key = s.key ∨ t.key = [] ∨ ∃ j, tgt = .keyWord j ∧ t.key = s.key.writeWord j v := by
  cases h with
  | softReset => exact .inr (.inl rfl)
  | stored =>
    cases tgt with
    | keyWord j => exact .inr (.inr ⟨j, rfl, rfl⟩)
    | reg r =>
      obtain ⟨_, _, hk, _⟩ := writeReg_frame s v r
      exact .inl hk
  | _ => exact .inl rfl

theorem keyOk_congr {s t : State} (hk : t.key = s.key) (hc : t.cfg = s.cfg) (h : s.keyOk) : t.keyOk := by
  simpa only [State.keyOk, hk, hc] using h

theorem keyOk_of_key_nil {s : State} (hk : s.key = []) : s.keyOk := by
  simp [State.keyOk, Memory.wf, hk]

/-- A word of the part's key RAM lies wholly inside it, since its size is a multiple of 4 (00_scope R8). -/
theorem keyOk_of_writeWord {s t : State} {j : Nat} {v : Word} (hl : s.cfg.legal) (hj : 4 * j < s.cfg.keyRamBytes)
    (hk : t.key = s.key.writeWord j v) (hc : t.cfg = s.cfg) (h : s.keyOk) : t.keyOk := by
  obtain ⟨_, h4, _⟩ := hl
  obtain ⟨hwf, hb⟩ := h
  rw [State.keyOk, hk, hc]
  exact ⟨memory_writeWord_wf hwf j v, memory_writeWord_bound hb (by omega) v⟩

/-- Settles O44, along the inversion of `step`: only a host write of a mapped key word stores in the key RAM, and that
word lies inside the part's. -/
theorem everyStepKeepsTheKeyRamForm : Obligations.EveryStepKeepsTheKeyRamForm := by
  intro s t h
  suffices keeps : t.cfg = s.cfg ∧ (s.cfg.legal → s.keyOk → t.keyOk) by
    obtain ⟨hcfg, hkey⟩ := keeps
    exact ⟨hcfg, fun hl hk => ⟨hcfg ▸ hl, hkey hl hk⟩⟩
  rcases step_cases h with ⟨rest, reply, rfl⟩ | ⟨rest, _, _, hc⟩ | ⟨a, rest, off, tgt, v, _, _, _, hd, _, hw⟩ |
    ⟨rest, _, rfl⟩ | ⟨rest, _, _, rfl⟩
  · exact ⟨rfl, fun _ hk => hk⟩
  · obtain ⟨⟨hkey, _⟩, _, hcfg, _⟩ := completion_frame (completion_of_completePending hc)
    exact ⟨hcfg, fun _ hk => keyOk_congr hkey hcfg hk⟩
  · have hw := hostWrite_of_busWrite hw
    have hcfg := hostWrite_cfg hw
    refine ⟨hcfg, fun hl hk => ?_⟩
    rcases hostWrite_key hw with hkey | hkey | ⟨j, rfl, hkey⟩
    · exact keyOk_congr hkey hcfg hk
    · exact keyOk_of_key_nil hkey
    · rcases busDecode_ok hd with ⟨_, _, ⟨r, hr, _⟩ | ⟨_, ⟨⟩, _, hj⟩⟩
      · cases hr
      · exact keyOk_of_writeWord hl hj hkey hcfg hk
  · exact ⟨rfl, fun _ _ => keyOk_of_key_nil rfl⟩
  · exact ⟨rfl, fun _ _ => keyOk_of_key_nil rfl⟩

/-! ## STATUS, CTRL and HWCFG bit by bit (10 R26 to R28) -/

@[simp] theorem flagWord_getLsbD (b : Bool) (i : Nat) : (flagWord b).getLsbD i = (b && decide (i = 0)) := by
  cases b <;> simp [flagWord, BitVec.getLsbD_one]

@[simp] theorem flagWord_getElem (b : Bool) (i : Nat) (h : i < 32) : (flagWord b)[i] = (b && decide (i = 0)) := by
  rw [← BitVec.getLsbD_eq_getElem, flagWord_getLsbD]

/-- The bits of a STATUS read (10 R27). -/
theorem statusWord_getLsbD (s : State) (i : Nat) :
    (statusWord s).getLsbD i =
      if 9 ≤ i then false else if i = 0 then s.busy else if i = 1 then s.done else if i = 2 then s.err
      else if i = 3 then false else if i < 8 then s.errcode.getLsbD (i - 4) else s.ovr := by
  by_cases hi : 9 ≤ i
  · have above : ∀ k ≤ 8, i - k ≠ 0 := by omega
    have h4 : s.errcode.getLsbD (i - 4) = false := BitVec.getLsbD_of_ge _ _ (by omega)
    have h0 : i ≠ 0 := by omega
    simp [statusWord, above, h4, hi, h0]
  · interval_cases i <;> simp [statusWord]

/-- The bits of a CTRL read (10 R26). -/
theorem ctrlWord_getLsbD (s : State) (i : Nat) :
    (ctrlWord s).getLsbD i =
      if 9 ≤ i ∨ i < 4 then false else if i < 8 then s.op.getLsbD (i - 4) else s.irqEn := by
  by_cases hi : 9 ≤ i
  · have h8 : i - 8 ≠ 0 := by omega
    have h4 : s.op.getLsbD (i - 4) = false := BitVec.getLsbD_of_ge _ _ (by omega)
    simp [ctrlWord, h8, h4, hi]
  · interval_cases i <;> simp [ctrlWord]

/-- Settles O11, from the bits of a STATUS read. -/
theorem statusReadsItsFields : Obligations.StatusReadsItsFields := by
  intro s
  refine ⟨statusWord_getLsbD s 0, statusWord_getLsbD s 1, statusWord_getLsbD s 2, statusWord_getLsbD s 3, ?_,
    statusWord_getLsbD s 8, ?_⟩
  · apply BitVec.eq_of_getLsbD_eq
    intro i hi
    rw [readReg, BitVec.getLsbD_extractLsb', statusWord_getLsbD]
    interval_cases i <;> simp
  · refine Nat.lt_pow_two_of_testBit _ fun i hi => ?_
    show (statusWord s).getLsbD i = false
    rw [statusWord_getLsbD, if_pos hi]

/-- A flag at bit i of a word is worth 2^i. -/
theorem flagWord_shiftLeft_toNat (b : Bool) {i : Nat} (hi : i < 32) : (flagWord b <<< i).toNat = 2 ^ i * b.toNat := by
  have hp : 2 ^ i < 2 ^ 32 := Nat.pow_lt_pow_right (by decide) hi
  cases b
  · simp [flagWord]
  · simpa [flagWord, Nat.shiftLeft_eq] using hp

/-- Beside bits below i, a multiple of 2^i is added. -/
theorem or_two_pow_mul_of_lt {x i : Nat} (hx : x < 2 ^ i) (a : Nat) : x ||| 2 ^ i * a = 2 ^ i * a + x := by
  rw [Nat.or_comm, Nat.two_pow_add_eq_or_of_lt hx]

/-- HWCFG as a number: KEY_RAM_BYTES / 4, and the two flags above it (10 R28). -/
theorem hwcfgWord_toNat {c : Config} (h : c.keyRamBytes ≤ 65536) :
    (hwcfgWord c).toNat = c.keyRamBytes / 4 + (if c.cryptoAvailable then 0x10000 else 0) +
      (if c.rejectEmptyKey then 0x20000 else 0) := by
  have hk : c.keyRamBytes / 4 < 2 ^ 16 := by omega
  have words : ((BitVec.ofNat 16 (c.keyRamBytes / 4)).setWidth 32).toNat = c.keyRamBytes / 4 := by
    simp only [BitVec.toNat_setWidth, BitVec.toNat_ofNat]
    omega
  have low : 2 ^ 16 * c.cryptoAvailable.toNat + c.keyRamBytes / 4 < 2 ^ 17 := by
    have := c.cryptoAvailable.toNat_le
    omega
  rw [hwcfgWord, BitVec.toNat_or, BitVec.toNat_or, words, flagWord_shiftLeft_toNat _ (by decide),
    flagWord_shiftLeft_toNat _ (by decide), or_two_pow_mul_of_lt hk, or_two_pow_mul_of_lt low]
  cases c.cryptoAvailable <;> cases c.rejectEmptyKey <;> simp <;> omega

/-- Settles O12, from the bits of a CTRL read and the number that HWCFG is. -/
theorem idCtrlAndHwcfgReadTheirFields : Obligations.IdCtrlAndHwcfgReadTheirFields := by
  intro s
  refine ⟨rfl, ?_, ctrlWord_getLsbD s 8, ?_, hwcfgWord_toNat⟩
  · apply BitVec.eq_of_getLsbD_eq
    intro i hi
    rw [readReg, BitVec.getLsbD_extractLsb', ctrlWord_getLsbD]
    interval_cases i <;> simp
  · apply BitVec.eq_of_getLsbD_eq
    intro i hi
    rw [readReg, BitVec.getLsbD_and, ctrlWord_getLsbD]
    by_cases h9 : i < 9
    · interval_cases i <;> simp
    · simp [show 9 ≤ i by omega]

/-- A vector of zero bytes reads 0 word by word. -/
@[simp] theorem wordOfBytes_replicate_zero {n : Nat} (k : Nat) (h : 4 * k + 3 < n) :
    wordOfBytes (Vector.replicate n 0#8) k h = 0#32 := by
  simp [wordOfBytes]

/-- ASCII1 reads its two characters in the upper half (10 R37). -/
theorem readReg_ascii1_toNat (s : State) :
    (readReg s .ascii1).toNat = be (s.ascii.toList.drop 4) * 2 ^ 16 := by
  have two : s.ascii.toList.drop 4 = [s.ascii[4], s.ascii[5]] := by
    apply List.ext_getElem
    · simp
    · intro i h1 _
      simp at h1
      interval_cases i <;> simp
  have h4 := s.ascii[4].isLt
  have h5 := s.ascii[5].isLt
  rw [two]
  simp only [readReg, BitVec.toNat_append, be, List.foldl]
  rw [← Nat.shiftLeft_add_eq_or_of_lt h5, ← Nat.shiftLeft_add_eq_or_of_lt (by simp)]
  simp only [Nat.shiftLeft_eq, BitVec.toNat_ofNat]
  omega

/-- Settles O13, one lemma of Laws/Bytes.lean per kind of register. -/
theorem dataRegistersReadTheirContents : Obligations.DataRegistersReadTheirContents := by
  intro s
  refine ⟨rfl, hi32_toNat _, lo32_toNat _, hi32_toNat _, lo32_toNat _, wordOfBytes_toNat s.msg 0 _, ?_,
    fun i => wordOfBytes_toNat s.digest i _, ?_, ?_, ?_, wordOfBytes_toNat s.ascii 0 _, readReg_ascii1_toNat s⟩
  · rw [readReg, wordOfBytes_toNat, List.take_of_length_le (by simp)]
  all_goals
    simp only [readReg, BitVec.toNat_setWidth]
    omega

/-- Settles O22, register by register. -/
theorem registersReadTheirResetValues : Obligations.RegistersReadTheirResetValues := by
  intro c
  refine ⟨fun r hid hhw => ?_, rfl, fun _ => rfl, rfl, by decide⟩
  cases r with
  | id => exact absurd rfl hid
  | hwcfg => exact absurd rfl hhw
  | ctrl => simp [readReg, ctrlWord, flagWord]
  | status => simp [readReg, statusWord, flagWord]
  | counterHi | timeHi => simp [readReg, hi32]
  | msgHi | msgLo | digest i | ascii0 | ascii1 => simp [readReg]
  | _ => rfl

/-! ## Reads -/

/-- A transaction at an offset of the window, whatever its byte lanes, is that transaction, on the state with the input
taken (20 R61). -/
theorem step_busTransaction {s : State} {off : Nat} {lanes : BitVec 4} {op : BusOp} {rest : List Input}
    (ho : off < windowBytes) (hr : s.inReset = false)
    (hi : s.inputs = .bus { addr := s.cfg.base + off, lanes := lanes, op := op } :: rest) :
    step s = busTransaction off lanes op { s with inputs := rest } := by
  simp [step, turn, hi, busAccess, hr, windowOffset_add ho]

/-- What a target reads as does not depend on the key RAM (10 R39). -/
theorem readTarget_with_key (s : State) (key : Memory) (tgt : Target) :
    readTarget { s with key := key } tgt = readTarget s tgt := by
  cases tgt with
  | keyWord j => rfl
  | reg r => cases r <;> rfl

/-- Settles O14: the address decode sees the part alone, and no target's value the key RAM. -/
theorem noReadDependsOnTheKey : Obligations.NoReadDependsOnTheKey := by
  intro s key off lanes rest ho hr hi
  rw [step_busTransaction ho hr hi, step_busTransaction (s := { s with key := key }) ho hr hi]
  unfold busTransaction
  cases busDecode s.cfg off lanes with
  | error e => exact ⟨.busError, rfl, rfl⟩
  | ok tgt =>
    refine ⟨.okRead (readTarget s tgt), rfl, ?_⟩
    exact congrArg (fun w => Host.Outcome.next { s with key := key, inputs := rest, reply := some (.okRead w) })
      (readTarget_with_key { s with inputs := rest } key tgt)

/-! ## Host writes while idle -/

/-- A word kept in n bits reads back as its low n bits. -/
theorem setWidth_setWidth_eq_and (v : Word) (n : Nat) :
    (v.setWidth n).setWidth 32 = v &&& BitVec.ofNat 32 (2 ^ n - 1) := by
  apply BitVec.eq_of_getLsbD_eq
  intro i hi
  rw [BitVec.getLsbD_setWidth, BitVec.getLsbD_setWidth, BitVec.getLsbD_and, BitVec.getLsbD_ofNat,
    Nat.testBit_two_pow_sub_one]
  simp [hi, Bool.and_comm]

/-- What a register reads as after a host write stored in it (10 R29 to R37, R43). -/
theorem readReg_writeReg_same (s : State) (v : Word) {r : Reg} (hc : r ≠ .ctrl) (hs : r ≠ .status) :
    readReg (writeReg s v r) r = if hostWritable r then v &&& storedBits r else readReg s r := by
  have full : v &&& 0xFFFFFFFF#32 = v := BitVec.and_allOnes
  cases r with
  | ctrl => exact absurd rfl hc
  | status => exact absurd rfl hs
  | trunc => exact setWidth_setWidth_eq_and v 31
  | code => exact setWidth_setWidth_eq_and v 20
  | id | hwcfg | offset | ascii0 | ascii1 => rfl
  | keyLen => exact full.symm
  | counterHi | timeHi => exact (hi32_setHi32 _ v).trans full.symm
  | counterLo | timeLo => exact (lo32_setLo32 _ v).trans full.symm
  | msgHi | msgLo | digest i => simp [readReg, writeReg, hostWritable, storedBits, full]

/-- A host write stored in a register changes no other (10 R30, R32, R33). -/
theorem readReg_writeReg_other (s : State) (v : Word) {r r' : Reg} (hs : r ≠ .status) (h : r' ≠ r) :
    readReg (writeReg s v r) r' = readReg s r' := by
  cases r with
  | id | ctrl | hwcfg | offset | ascii0 | ascii1 => rfl
  | status => exact absurd rfl hs
  | keyLen =>
    cases r' with
    | keyLen => exact absurd rfl h
    | _ => rfl
  | trunc =>
    cases r' with
    | trunc => exact absurd rfl h
    | _ => rfl
  | code =>
    cases r' with
    | code => exact absurd rfl h
    | _ => rfl
  | counterHi =>
    cases r' with
    | counterHi => exact absurd rfl h
    | counterLo => exact lo32_setHi32 _ _
    | _ => rfl
  | counterLo =>
    cases r' with
    | counterHi => exact hi32_setLo32 _ _
    | counterLo => exact absurd rfl h
    | _ => rfl
  | timeHi =>
    cases r' with
    | timeHi => exact absurd rfl h
    | timeLo => exact lo32_setHi32 _ _
    | _ => rfl
  | timeLo =>
    cases r' with
    | timeHi => exact hi32_setLo32 _ _
    | timeLo => exact absurd rfl h
    | _ => rfl
  | msgHi =>
    cases r' with
    | msgHi => exact absurd rfl h
    | msgLo => simp [readReg, writeReg]
    | _ => rfl
  | msgLo =>
    cases r' with
    | msgHi => simp [readReg, writeReg]
    | msgLo => exact absurd rfl h
    | _ => rfl
  | digest i =>
    cases r' with
    | digest i' =>
      have hi : i'.val ≠ i.val := fun e => h (by rw [Fin.ext e])
      simp [readReg, writeReg, hi]
    | _ => rfl

/-- The model's own fields that a transaction takes up are in no register. -/
theorem readReg_with_inputs_reply (s : State) (inputs : List Input) (reply : Option BusReply) (r : Reg) :
    readReg { s with inputs := inputs, reply := reply } r = readReg s r := by
  cases r <;> rfl

/-- Settles O15, on the state with the input taken and answered. -/
theorem idleRegisterWriteStoresAndReadsBack : Obligations.IdleRegisterWriteStoresAndReadsBack := by
  intro s off r v rest hoff hc hs hb hr hi
  obtain rfl := offsetOf_of_mem hoff
  obtain ⟨_, hpend, hkey, hcfg, hin, hrep, hres⟩ :=
    writeReg_frame { s with inputs := rest, reply := some .okWrite } v r
  refine ⟨_, step_writeReg_idle hb hr hc hs hi, ?_, fun r' h => ?_, fun a => by rw [hkey], hkey, hin, hrep, hcfg, hpend,
    hres.trans hr⟩
  · rw [readReg_writeReg_same _ v hc hs, readReg_with_inputs_reply]
  · rw [readReg_writeReg_other _ v hs h, readReg_with_inputs_reply]

/-- `bytes_be` of a word is its four bytes in lane order (20 R65). -/
theorem bytesBe_word (v : Word) : bytesBe v.toNat 4 = [wordByte v 0, wordByte v 1, wordByte v 2, wordByte v 3] := by
  have h := bytesBe_be [wordByte v 0, wordByte v 1, wordByte v 2, wordByte v 3]
  rwa [← append4_toNat, wordByte_append] at h

/-- Settles O16: the key RAM after the step is `Memory.writeWord`'s, whose reads `memory_read_writeWord` gives. -/
theorem idleKeyWriteStoresFourBytes : Obligations.IdleKeyWriteStoresFourBytes := by
  intro s j v rest ⟨⟨_, _, _, hmax⟩, _, _, hwf, _⟩ hj hb hr hi
  refine ⟨s.key.writeWord j v, ?_, fun a ha => ?_, ?_⟩
  · have hw : keyWindow + 4 * j < windowBytes := by simp only [keyWindow, windowBytes]; omega
    rw [step_writeKey hr hj hw hi]
    simp [busWrite, writeTarget, hb]
  · rw [memory_read_writeWord hwf, if_neg ha]
  · have byte : ∀ i < 4, (s.key.writeWord j v).read (4 * j + i) = wordByte v i := by
      intro i h4
      rw [memory_read_writeWord hwf, if_pos (by omega), Nat.mul_add_mod, Nat.mod_eq_of_lt h4]
    rw [bytesBe_word, ← byte 0 (by decide), ← byte 1 (by decide), ← byte 2 (by decide), ← byte 3 (by decide)]
    rfl

/-- Settles O18: the write-one-to-clear of `acknowledge`, flag by flag. -/
theorem idleStatusWriteAcknowledges : Obligations.IdleStatusWriteAcknowledges := by
  intro s v rest hb hr hi
  have clear : ∀ flag bit : Bool, (flag && !bit) = if bit then false else flag := by decide
  rw [step_writeReg (r := .status) hr hi]
  simp [busWrite, hb, acknowledge, clear]

/-! ## Who writes what (10 R44) -/

/-- A reserved code completes with BAD_OP and changes STATUS alone (30 R85, 60 R186). -/
theorem completion_reserved {s t : State} (h : Completion s t) (hp : isReservedOp s.pending) :
    t = s.completedErr 1 := by
  cases h with
  | reserved => rfl
  | keyCheckFailed hu => rcases hu with hu | hu | hu <;> simp [isReservedOp, hu] at hp
  | enc ho | mac ho | trunc ho | mod ho | fmt ho | tstep ho | hotp ho | totp ho => simp [isReservedOp, ho] at hp

/-- Settles O48: the host's elements and the reserved codes by their lemmas, and each data element command by command. -/
theorem writersOfEachElement : Obligations.WritersOfEachElement := by
  intro s t hb hr h
  have hc : Completion s t := completion_of_completePending (by simpa [engineStep, hb, hr] using h)
  obtain ⟨hhost, _⟩ := completion_frame hc
  refine ⟨hhost, ?_⟩
  simp only [← and_assoc]
  refine ⟨?_, completion_reserved hc⟩
  cases hc with
  | enc hp | trunc hp | mod hp | fmt hp | tstep hp | reserved hp => simp [hp]
  | mac hp | hotp hp | totp hp => simp [hp, usesKey, hotpStages, totpStages]
  | keyCheckFailed hp => rcases hp with hp | hp | hp <;> simp [hp, usesKey]

end Sys2Proof.Machine
end

section
/-! PROOFS. The statements about the bus and the memory map (20_memory.md): the instruction of a CTRL write, what a
rejected transaction and a read leave, what a busy engine holds, and who changes the key RAM. -/

namespace Sys2Proof.Machine

/-! ## Rejected transactions (20 R62 to R64, 10 R38) -/

/-- Offset 0x014 lies between KEY_LEN and COUNTER_HI (10 R38). -/
theorem offsetOf_ne_gap (r : Reg) : r.offsetOf ≠ 0x014 := by
  cases r with
  | digest i => simp only [Reg.offsetOf]; omega
  | _ => decide

/-- A reserved offset is no register's and no key word's (10 R38). -/
theorem not_reservedOffset_of_busDecode_ok {c : Config} {off : Nat} {lanes : BitVec 4} {tgt : Target}
    (h : busDecode c off lanes = .ok tgt) : ¬ reservedOffset c off := by
  rcases busDecode_ok h with ⟨_, _, ⟨r, _, rfl⟩ | ⟨j, _, rfl, hj⟩⟩
  · have hgap := offsetOf_ne_gap r
    have hle := offsetOf_le r
    simp only [reservedOffset, keyWindow]
    omega
  · simp only [reservedOffset, keyWindow]
    omega

/-- The address decode rejects what is misaligned, partial or reserved (20 R62 to R64). -/
theorem busDecode_error {c : Config} {off : Nat} {lanes : BitVec 4}
    (h : off % 4 ≠ 0 ∨ lanes ≠ 0xF#4 ∨ reservedOffset c off) : ∃ e, busDecode c off lanes = .error e := by
  cases hd : busDecode c off lanes with
  | error e => exact ⟨e, rfl⟩
  | ok tgt =>
    obtain ⟨hl, h4, _⟩ := busDecode_ok hd
    rcases h with h | h | h
    · exact absurd h4 h
    · exact absurd hl h
    · exact absurd h (not_reservedOffset_of_busDecode_ok hd)

/-- Settles O8: the address decode rejects the transaction, and a rejected one answers `BusError`. -/
theorem badAccessAnswersBusErrorAndChangesNothing : Obligations.BadAccessAnswersBusErrorAndChangesNothing := by
  intro s off lanes op rest ho hr hi hbad
  obtain ⟨e, he⟩ := busDecode_error hbad
  rw [step_busTransaction ho hr hi]
  simp [busTransaction, he]

/-! ## Reads (20 R61, R69) -/

/-- Settles O9: a rejected read answers `BusError`, a mapped one its target's value, and neither does more. -/
theorem readsChangeNoState : Obligations.ReadsChangeNoState := by
  intro s off lanes rest ho hr hi
  rw [step_busTransaction ho hr hi]
  rcases busTransaction_cases off lanes .read { s with inputs := rest } with
    ⟨_, _, e⟩ | ⟨tgt, _, _, e⟩ | ⟨_, _, _, ⟨⟩, _⟩
  · exact ⟨.busError, e⟩
  · exact ⟨.okRead (readTarget { s with inputs := rest } tgt), e⟩

/-- A full-width read of a mapped offset answers its target's value (20 R61). -/
theorem step_readTarget {s : State} {off : Nat} {tgt : Target} {rest : List Input} (ho : off < windowBytes)
    (hr : s.inReset = false) (hd : busDecode s.cfg off 0xF#4 = .ok tgt)
    (hi : s.inputs = .bus { addr := s.cfg.base + off, lanes := 0xF#4, op := .read } :: rest) :
    step s = .next { s with inputs := rest, reply := some (.okRead (readTarget { s with inputs := rest } tgt)) } := by
  rw [step_accessAt ho hr hi]
  simp [busTransaction, hd]

/-- The table of 10 R22 lists every register at its offset. -/
theorem mem_registerOffsets (r : Reg) : (r.offsetOf, r) ∈ registerOffsets := by
  cases r with
  | digest i => revert i; decide
  | _ => decide

/-- Settles O10: the decoder maps the table's offsets to their registers, and the key window to its words. -/
theorem mappedReadAnswersItsRegister : Obligations.MappedReadAnswersItsRegister := by
  intro s rest hr hmax
  refine ⟨fun r => ⟨_, mem_registerOffsets r⟩, fun ⟨off, r⟩ hp hi => ?_, fun j hj hi => ?_⟩
  · obtain rfl := offsetOf_of_mem hp
    have ho : r.offsetOf < windowBytes := Nat.lt_of_le_of_lt (offsetOf_le r) (by decide)
    rw [step_readTarget ho hr (busDecode_reg s.cfg r) hi, readTarget, readReg_with_inputs_reply s rest s.reply r]
  · have ho : keyWindow + 4 * j < windowBytes := by simp only [keyWindow, windowBytes]; omega
    exact step_readTarget ho hr (busDecode_keyWord hj) hi

/-! ## While BUSY stays 1 (20 R73, 70 R220) -/

/-- A host write that leaves a busy engine busy changes OVR alone (60 R190, 10 R27). -/
theorem hostWrite_busy {tgt : Target} {v : Word} {s t : State} (h : HostWrite tgt v s t) (hs : s.busy = true)
    (ht : t.busy = true) : ∃ ovr, t = { s with ovr := ovr } := by
  cases h with
  | softReset => cases ht
  | dropped => exact ⟨true, rfl⟩
  | ovrCleared => exact ⟨s.ovr && !v.getLsbD 8, rfl⟩
  | accepted hb | configured hb | acknowledged hb | stored hb => exact absurd hs (by simp [hb])

/-- A step from a busy state to a busy state changes OVR and the model's own fields alone. -/
theorem step_busy {s t : State} (hs : s.busy = true) (h : step s = .next t) (ht : t.busy = true) :
    ∃ ovr inputs reply, t = { s with ovr := ovr, inputs := inputs, reply := reply } := by
  rcases step_cases h with ⟨rest, reply, rfl⟩ | ⟨rest, _, _, hc⟩ | ⟨a, rest, off, tgt, v, _, _, _, _, _, hw⟩ |
    ⟨rest, _, rfl⟩ | ⟨rest, _, _, rfl⟩
  · exact ⟨s.ovr, rest, reply, rfl⟩
  · obtain ⟨hb, _⟩ := completion_status (completion_of_completePending hc)
    exact absurd ht (by simp [hb])
  · obtain ⟨ovr, rfl⟩ := hostWrite_busy (hostWrite_of_busWrite hw) hs ht
    exact ⟨ovr, rest, some .okWrite, rfl⟩
  · cases ht
  · cases ht

/-- OVR is in no register but STATUS (10 R27). -/
theorem readReg_with_ovr (s : State) (ovr : Bool) {r : Reg} (h : r ≠ .status) :
    readReg { s with ovr := ovr } r = readReg s r := by
  cases r with
  | status => exact absurd rfl h
  | _ => rfl

/-- OVR is bit 8 of STATUS and no other (10 R27). -/
theorem statusWord_with_ovr (s : State) (ovr : Bool) :
    statusWord { s with ovr := ovr } &&& 0xFFFFFEFF#32 = statusWord s &&& 0xFFFFFEFF#32 := by
  apply BitVec.eq_of_getLsbD_eq
  intro i _
  rw [BitVec.getLsbD_and, BitVec.getLsbD_and, statusWord_getLsbD, statusWord_getLsbD]
  by_cases h9 : 9 ≤ i
  · simp [h9]
  · interval_cases i <;> simp

/-- Settles O19: between two busy states only OVR moves. -/
theorem registersHoldWhileBusy : Obligations.RegistersHoldWhileBusy := by
  intro s t hs h ht
  obtain ⟨ovr, inputs, reply, rfl⟩ := step_busy hs h ht
  refine ⟨fun r hr => ?_, statusWord_with_ovr s ovr, fun _ => rfl, rfl⟩
  exact (readReg_with_inputs_reply { s with ovr := ovr } inputs reply r).trans (readReg_with_ovr s ovr hr)

/-! ## Who changes the key RAM (20 R77, 10 R39, 70 R211) -/

/-- A host write that changes the key RAM is a soft reset or a key word stored while idle. -/
theorem hostWrite_changes_key {tgt : Target} {v : Word} {s t : State} (h : HostWrite tgt v s t)
    (hk : t.key ≠ s.key) : (tgt = .reg .ctrl ∧ ctrlSrst v = true) ∨ ∃ j, tgt = .keyWord j ∧ s.busy = false := by
  cases h with
  | softReset ht hs => exact .inl ⟨ht, hs⟩
  | stored hb =>
    cases tgt with
    | keyWord j => exact .inr ⟨j, rfl, hb⟩
    | reg r =>
      obtain ⟨_, _, hkey, _⟩ := writeReg_frame s v r
      exact absurd hkey hk
  | dropped | accepted | configured | ovrCleared | acknowledged => exact absurd rfl hk

/-- Settles O49, along the inversion of `step`: the completion step leaves the key RAM, and the address decode gives the
offset of the host write that changes it. -/
theorem onlyHostWritesAndResetsChangeTheKey : Obligations.OnlyHostWritesAndResetsChangeTheKey := by
  intro s t h hk
  rcases step_cases h with ⟨rest, reply, rfl⟩ | ⟨rest, _, _, hc⟩ | ⟨a, rest, off, tgt, v, _, hi, ho, hd, hop, hw⟩ |
    ⟨rest, hi, _⟩ | ⟨rest, hi, _⟩
  · exact absurd rfl hk
  · obtain ⟨⟨hkey, _⟩, _⟩ := completion_frame (completion_of_completePending hc)
    exact absurd hkey hk
  · refine .inr ⟨a, rest, off, v, hi, hop, ho, ?_⟩
    obtain ⟨_, _, hoff⟩ := busDecode_ok hd
    rcases hostWrite_changes_key (hostWrite_of_busWrite hw) hk with ⟨rfl, hs⟩ | ⟨j, rfl, hb⟩
    · obtain ⟨_, ⟨⟩, rfl⟩ | ⟨_, ⟨⟩, _⟩ := hoff
      exact .inl ⟨rfl, hs⟩
    · obtain ⟨_, ⟨⟩, _⟩ | ⟨_, ⟨⟩, rfl, hj⟩ := hoff
      simp only [keyWindow]
      exact .inr ⟨by omega, by omega, hb⟩
  · exact .inl ⟨rest, .inl hi⟩
  · exact .inl ⟨rest, .inr hi⟩

/-! ## The instruction of a CTRL write (20 R61, R75, 30 R81) -/

/-- A full-width host write of CTRL is `exec` of the instruction its value decodes to. -/
theorem step_writeCtrl {s : State} {w : Word} {rest : List Input} (hr : s.inReset = false)
    (hi : s.inputs = .bus { addr := s.cfg.base + 0x004, lanes := 0xF#4, op := .write w } :: rest) :
    step s = exec (decode w) { s with inputs := rest, reply := some .okWrite } :=
  step_writeReg (r := .ctrl) hr hi

/-- Settles O6: `withFetchWord` puts the CTRL write of the word first among the inputs. -/
theorem stepRunsTheDecodedInstruction : Obligations.StepRunsTheDecodedInstruction := by
  refine ⟨fun s w rest hr hi => step_writeCtrl hr hi, fun s nbits w i h => ?_⟩
  unfold decodeTableWord at h
  split at h
  · cases h
    exact step_writeCtrl (s := s.withFetchWord nbits w) rfl rfl
  · cases h

end Sys2Proof.Machine
end

section
/-! PROOFS. The statements about the command word and the host program (30_encoding.md): the encoder against the decoder
and the opcode table, what a CTRL write does, and what the pseudo-instructions leave. -/

namespace Sys2Proof.Machine

/-! ## The command word (30 R80 to R87) -/

/-- The fields of format CMD decode to a command with START, to a configuration write without (30 R81). -/
theorem decode_ctrlFields (start : Bool) (op : BitVec 4) (irqEn : Bool) :
    decode (ctrlFields start op irqEn) = if start then commandOf op irqEn else .cfg irqEn op := by
  simp [decode]

/-- SRST's bit of a word is bit 31 (30 R82). -/
theorem srstMask_getLsbD (i : Nat) : (0x80000000#32).getLsbD i = decide (i = 31) := by
  rw [show 0x80000000#32 = BitVec.twoPow 32 31 from rfl, BitVec.getLsbD_twoPow]
  simp [eq_comm]

/-- SRST's word decodes to it, whatever its other bits (30 R82). -/
theorem decode_srst_word (ignored : BitVec 31) :
    decode (0x80000000#32 ||| ignored.setWidth 32) = .srst ignored := by
  have hs : ctrlSrst (0x80000000#32 ||| ignored.setWidth 32) = true := by simp [ctrlSrst]
  have hi : (0x80000000#32 ||| ignored.setWidth 32).setWidth 31 = ignored := by
    apply BitVec.eq_of_getLsbD_eq
    intro i hi
    rw [BitVec.getLsbD_setWidth, BitVec.getLsbD_or, srstMask_getLsbD, BitVec.getLsbD_setWidth]
    simp [hi, show i < 32 by omega, show i ≠ 31 by omega]
  rw [decode, if_pos hs, hi]

/-- Settles O1: SRST by its own word, every other instruction by the fields of format CMD. -/
theorem decodeOfEncode : Obligations.DecodeOfEncode := by
  intro i
  cases i with
  | srst ignored => exact decode_srst_word ignored
  | cfg irqEn op => exact decode_ctrlFields false op irqEn
  | enc irqEn | mac irqEn | trunc irqEn | mod irqEn | fmt irqEn | tstep irqEn | hotp irqEn | totp irqEn
  | rsvdOp0 irqEn | rsvdOp7 irqEn | rsvdOpA irqEn | rsvdOpB irqEn | rsvdOpC irqEn | rsvdOpD irqEn | rsvdOpE irqEn
  | rsvdOpF irqEn => exact decode_ctrlFields true _ irqEn

theorem encode_commandOf (op : BitVec 4) (irqEn : Bool) :
    encode (commandOf op irqEn) = ctrlFields true op irqEn := by
  cases irqEn <;> revert op <;> decide

/-- Format CMD, with its flags as words of one bit (30 R80). -/
theorem ctrlFields_eq_flagWord (start : Bool) (op : BitVec 4) (irqEn : Bool) :
    ctrlFields start op irqEn = flagWord start ||| (op.setWidth 32 <<< 4) ||| (flagWord irqEn <<< 8) := by
  cases start <;> cases irqEn <;> rfl

/-- The fields of a word without SRST, put together again, are the word with its reserved bits 0 (30 R80). -/
theorem ctrlFields_of_word {w : Word} (h : ctrlSrst w = false) :
    ctrlFields (ctrlStart w) (ctrlOp w) (ctrlIrqEn w) = w &&& 0x800001F1#32 := by
  have h31 : w[31] = false := h
  rw [ctrlFields_eq_flagWord]
  apply BitVec.eq_of_getLsbD_eq
  intro i hi
  interval_cases i <;> simp [ctrlStart, ctrlOp, ctrlIrqEn, h31]

/-- A word without SRST encodes again as itself, its reserved bits 0 (30 R86, log 11). -/
theorem encode_decode {w : Word} (h : ctrlSrst w = false) : encode (decode w) = w &&& 0x800001F1#32 := by
  rw [← ctrlFields_of_word h, decode, h]
  cases ctrlStart w
  · rfl
  · exact encode_commandOf _ _

/-- A word with SRST encodes again as itself (30 R82, log 11). -/
theorem encode_decode_srst {w : Word} (h : ctrlSrst w = true) : encode (decode w) = w := by
  have h31 : w[31] = true := h
  rw [decode, if_pos h, encode]
  apply BitVec.eq_of_getLsbD_eq
  intro i hi
  rw [BitVec.getLsbD_or, srstMask_getLsbD, BitVec.getLsbD_setWidth, BitVec.getLsbD_setWidth]
  by_cases e : i = 31
  · simp [e, h31]
  · simp [e, hi, show i < 31 by omega]

/-! ## The opcode table (30 R84, R85, R87) -/

/-- Every instruction's word matches its own row and no other. -/
theorem encodesRow (i : Instr) : Laws.EncodesRow.Statement i := by
  cases i with
  | enc irqEn => exact Laws.EncodesRow.enc irqEn
  | mac irqEn => exact Laws.EncodesRow.mac irqEn
  | trunc irqEn => exact Laws.EncodesRow.trunc irqEn
  | mod irqEn => exact Laws.EncodesRow.mod irqEn
  | fmt irqEn => exact Laws.EncodesRow.fmt irqEn
  | tstep irqEn => exact Laws.EncodesRow.tstep irqEn
  | hotp irqEn => exact Laws.EncodesRow.hotp irqEn
  | totp irqEn => exact Laws.EncodesRow.totp irqEn
  | srst ignored => exact Laws.EncodesRow.srst ignored
  | cfg irqEn op => exact Laws.EncodesRow.cfg irqEn op
  | rsvdOp0 irqEn => exact Laws.EncodesRow.rsvdOp0 irqEn
  | rsvdOp7 irqEn => exact Laws.EncodesRow.rsvdOp7 irqEn
  | rsvdOpA irqEn => exact Laws.EncodesRow.rsvdOpA irqEn
  | rsvdOpB irqEn => exact Laws.EncodesRow.rsvdOpB irqEn
  | rsvdOpC irqEn => exact Laws.EncodesRow.rsvdOpC irqEn
  | rsvdOpD irqEn => exact Laws.EncodesRow.rsvdOpD irqEn
  | rsvdOpE irqEn => exact Laws.EncodesRow.rsvdOpE irqEn
  | rsvdOpF irqEn => exact Laws.EncodesRow.rsvdOpF irqEn

/-- No row looks at a bit that decoding and encoding again loses (30 R86). -/
theorem admits_encode_decode {r : OpRow} (hr : r ∈ opcodeTable) (w : Word) :
    r.admits (encode (decode w)) = r.admits w := by
  have masks : ∀ r ∈ opcodeTable, 0x800001F1#32 &&& r.mask = r.mask := by decide
  cases hs : ctrlSrst w
  · rw [encode_decode hs, OpRow.admits, OpRow.admits, BitVec.and_assoc, masks r hr]
  · rw [encode_decode_srst hs]

/-- Settles O2: the rows that admit a word are those that admit the word of its instruction. -/
theorem everyCtrlWordMatchesItsOneRow : Obligations.EveryCtrlWordMatchesItsOneRow := by
  intro w
  rw [← List.filter_congr fun r hr => admits_encode_decode hr w]
  exact encodesRow (decode w)

/-! ## What a CTRL write does (30 R81, R82, R85 to R87) -/

/-- Words that agree in the bits decoding reads decode alike, SRST apart (30 R86). -/
theorem decode_congr {v w : Word} (hv : ctrlSrst v = false) (hw : ctrlSrst w = false)
    (h : v &&& 0x800001F1#32 = w &&& 0x800001F1#32) : decode v = decode w := by
  rw [← decodeOfEncode (decode v), encode_decode hv, h, ← encode_decode hw, decodeOfEncode]

/-- A CTRL write with SRST is the soft reset, whatever its other bits (30 R82). -/
theorem exec_decode_srst {v : Word} (h : ctrlSrst v = true) (s : State) : exec (decode v) s = .next (resetState s) := by
  rw [exec_decode, if_pos h]

/-- Settles O3: with SRST no other bit counts, without it the bits under the mask fix the instruction. -/
theorem reservedCtrlBitsChangeNothing : Obligations.ReservedCtrlBitsChangeNothing := by
  have srst : ∀ (v w : Word) (s : State), ctrlSrst v = true → ctrlSrst w = true →
      exec (decode v) s = exec (decode w) s := fun v w s hv hw => by
    rw [exec_decode_srst hv, exec_decode_srst hw]
  refine ⟨fun v w s h => ?_, srst, fun s => ?_⟩
  · have top : ctrlSrst v = ctrlSrst w := by
      simpa [ctrlSrst] using congrArg (fun x : Word => x.getLsbD 31) h
    cases hv : ctrlSrst v
    · rw [decode_congr hv (top ▸ hv) h]
    · exact srst v w s hv (top ▸ hv)
  · apply BitVec.eq_of_getLsbD_eq
    intro i hi
    rw [readReg, BitVec.getLsbD_and, ctrlWord_getLsbD]
    interval_cases i <;> simp

/-- Settles O4: the decoding order of `exec_decode`, its states written out. -/
theorem ctrlWriteDecodingOrder : Obligations.CtrlWriteDecodingOrder :=
  fun v s => exec_decode v s

/-- Settles O31: the soft reset's state is `State.resetOf` of the part but for the model's own fields. -/
theorem softResetClearsEverything : Obligations.SoftResetClearsEverything :=
  fun _ s => ⟨rfl, state_resetOf_busy s.cfg, rfl⟩

/-- The value under CFG's mask is 0 exactly without SRST and START (30 R87). -/
theorem and_cfgMask_eq_zero_iff (v : Word) :
    v &&& 0x80000001#32 = 0#32 ↔ ctrlSrst v = false ∧ ctrlStart v = false := by
  constructor
  · intro h
    have bit : ∀ i, (v &&& 0x80000001#32).getLsbD i = false := fun i => by rw [h, BitVec.getLsbD_zero]
    exact ⟨by simpa [ctrlSrst] using bit 31, by simpa [ctrlStart] using bit 0⟩
  · rintro ⟨hs, hc⟩
    have h31 : v[31] = false := hs
    have h0 : v[0] = false := hc
    apply BitVec.eq_of_getLsbD_eq
    intro i hi
    interval_cases i <;> simp [h31, h0]

theorem commandOf_ne_cfg (op op' : BitVec 4) (irqEn irqEn' : Bool) : commandOf op irqEn ≠ .cfg irqEn' op' := by
  intro h
  have start : ctrlStart (ctrlFields true op irqEn) = ctrlStart (ctrlFields false op' irqEn') := by
    rw [← encode_commandOf, h, encode]
  simp at start

/-- Settles O32: the decoder's order shows which values decode to CFG. -/
theorem configurationWriteStoresOpAndIrqEn : Obligations.ConfigurationWriteStoresOpAndIrqEn := by
  refine ⟨fun irqEn op s hb => ?_, fun v => ?_⟩
  · simp [exec, execCfg, hb, configure]
  · rw [and_cfgMask_eq_zero_iff, decode]
    cases ctrlSrst v
    · cases ctrlStart v
      · simp [ctrlIrqEn, ctrlOp]
      · simp [commandOf_ne_cfg]
    · simp

/-- Settles O5, word by word. -/
theorem wordsFromTheEncodingDecode : Obligations.WordsFromTheEncodingDecode := by
  unfold Obligations.WordsFromTheEncodingDecode
  decide

/-- While idle a command is accepted (60 R184). -/
theorem exec_commandOf_idle {s : State} (hb : s.busy = false) (op : BitVec 4) (irqEn : Bool) :
    exec (commandOf op irqEn) s = .next (s.acceptedWith op irqEn) := by
  rw [exec_commandOf, issue, hb]
  rfl

/-- The engine's turn while busy is a completion step (60 R185). -/
theorem engineStep_busy {s : State} (hb : s.busy = true) (hr : s.inReset = false) :
    ∃ t, engineStep s = .next t ∧ Completion s t := by
  obtain ⟨t, ht, _⟩ := completePending_cases s
  exact ⟨t, by rw [engineStep, if_pos ⟨hb, hr⟩, ht], completion_of_completePending ht⟩

/-- A command with a reserved code: accepted while idle, completed with BAD_OP (30 R85). -/
theorem reservedOp_accepted_and_completed {s : State} {op : BitVec 4} (irqEn : Bool) (hop : isReservedOp op)
    (hb : s.busy = false) (hr : s.inReset = false) :
    exec (commandOf op irqEn) s = .next (s.acceptedWith op irqEn) ∧
      engineStep (s.acceptedWith op irqEn) = .next ((s.acceptedWith op irqEn).completedErr 1) := by
  obtain ⟨t, ht, hc⟩ := engineStep_busy (s := s.acceptedWith op irqEn) rfl hr
  exact ⟨exec_commandOf_idle hb op irqEn, completion_reserved hc hop ▸ ht⟩

/-- Settles O33: each row of the list is the command of a reserved code. -/
theorem reservedOpsCompleteWithBadOp : Obligations.ReservedOpsCompleteWithBadOp := by
  intro irqEn s hb hr p hp
  obtain ⟨hcmd, hop⟩ : p.1 irqEn = commandOf p.2 irqEn ∧ isReservedOp p.2 := by
    simp only [List.mem_cons, List.not_mem_nil, or_false] at hp
    rcases hp with rfl | rfl | rfl | rfl | rfl | rfl | rfl | rfl <;> exact ⟨rfl, by decide⟩
  rw [hcmd]
  exact reservedOp_accepted_and_completed irqEn hop hb hr

/-! ## The waits (30 R89, 60 R188, R193) -/

/-- The first step of a run. -/
theorem run_succ_of_step {n : Nat} {s t : State} (h : step s = .next t) : core.run (n + 1) s = core.run n t := by
  simp only [Host.Core.run]
  rw [show core.step s = .next t from h]

/-- A busy engine's DONE is 0 (10 R42). -/
theorem done_of_busy {s : State} (hf : s.flagsOk) (hb : s.busy = true) : s.done = false := by
  obtain ⟨hbusy, _⟩ := hf
  obtain ⟨hdone, _⟩ := hbusy hb
  exact hdone

/-- Settles O51: a busy engine's WAITDONE is its completion, which sets DONE, and DONE ends the loop. -/
theorem waitDoneEnds : Obligations.WaitDoneEnds := by
  intro s rest hf hb hr hi
  have hd := done_of_busy hf hb
  obtain ⟨t, ht, hc⟩ := engineStep_busy hb hr
  obtain ⟨hbusy, hdone, _⟩ := completion_status hc
  obtain ⟨_, _, _, hin, _, hres⟩ := completion_frame hc
  refine ⟨t, ?_, hbusy, hdone, hin.trans hi, ?_⟩
  · simp [step, turn, hi, waitDone, hr, hd, hb, ht]
  · simp [step, turn, hin, hi, waitDone, hres, hr, hdone, pollStatus, readReg]

/-- WAITIRQ of a busy engine whose command has IRQ_EN: the completion raises `irq`, and that ends the wait. -/
theorem waitIrq_ends {s : State} {rest : List Input} (hf : s.flagsOk) (hb : s.busy = true) (hr : s.inReset = false)
    (he : s.irqEn = true) (hi : s.inputs = .waitIrq :: rest) :
    ∃ t, step s = .next t ∧ t.busy = false ∧ t.irq = true ∧ t.inputs = .waitIrq :: rest ∧
      step t = .next { t with inputs := rest } := by
  have hd := done_of_busy hf hb
  obtain ⟨t, ht, hc⟩ := engineStep_busy hb hr
  obtain ⟨hbusy, hdone, _⟩ := completion_status hc
  obtain ⟨⟨_, _, _, _, hirqEn, _⟩, _, _, hin, _⟩ := completion_frame hc
  have hirq : t.irq = true := by simp [State.irq, hdone, hirqEn, he]
  refine ⟨t, ?_, hbusy, hirq, hin.trans hi, ?_⟩
  · simp [step, turn, hi, waitIrq, State.irq, hd, ht]
  · simp [step, turn, hin, hi, waitIrq, hirq]

/-! ## Host programs (30 R88, R89) -/

/-- The value of a `CMD` statement is the word of its command (30 R88). -/
theorem cmdWord_eq_ctrlFields (op : BitVec 4) (irq : Bool) :
    (op.setWidth 32 <<< 4) ||| (if irq then 0x101#32 else 0x1#32) = ctrlFields true op irq := by
  cases irq <;> revert op <;> decide

/-- Settles O52: the value written is the word of the command. -/
theorem cmdStatementIsItsCommand : Obligations.CmdStatementIsItsCommand :=
  fun _ op irq => ⟨_, rfl, by rw [cmdWord_eq_ctrlFields, decode_ctrlFields, if_pos rfl]⟩

/-- The offset a host write of a target goes to (10 R22, R39). -/
def offsetOfTarget : Target → Nat
  | .reg r => r.offsetOf
  | .keyWord j => keyWindow + 4 * j

/-- The targets that only store a host write's value: the registers but CTRL and STATUS, and the part's key words. -/
def PlainTarget (c : Config) : Target → Prop
  | .reg r => r ≠ .ctrl ∧ r ≠ .status
  | .keyWord j => 4 * j < c.keyRamBytes ∧ keyWindow + 4 * j < windowBytes

/-- A stored write neither reads nor changes the model's own fields that a transaction takes up. -/
theorem writeTarget_with_inputs_reply (s : State) (inputs : List Input) (reply : Option BusReply) (v : Word)
    (tgt : Target) : writeTarget { s with inputs := inputs, reply := reply } v tgt =
      { writeTarget s v tgt with inputs := inputs, reply := reply } := by
  cases tgt with
  | keyWord j => rfl
  | reg r => cases r <;> rfl

/-- A host write of a key word to an idle engine stores it (10 R39). -/
theorem step_writeKey_idle {s : State} {j : Nat} {v : Word} {rest : List Input} (hb : s.busy = false)
    (hr : s.inReset = false) (hj : 4 * j < s.cfg.keyRamBytes) (hw : keyWindow + 4 * j < windowBytes)
    (hi : s.inputs = writeAt s.cfg (keyWindow + 4 * j) v :: rest) :
    step s = .next (writeTarget { s with inputs := rest, reply := some .okWrite } v (.keyWord j)) := by
  rw [step_writeKey hr hj hw hi]
  simp [busWrite, hb]

/-- A host write of a plain target to an idle engine stores it (10 R29 to R39). -/
theorem step_writeTarget_idle {s : State} {tgt : Target} (v : Word) (reply : Option BusReply) (rest : List Input)
    (hb : s.busy = false) (hr : s.inReset = false) (ht : PlainTarget s.cfg tgt) :
    step { s with inputs := writeAt s.cfg (offsetOfTarget tgt) v :: rest, reply := reply } =
      .next { writeTarget s v tgt with inputs := rest, reply := some .okWrite } := by
  rw [← writeTarget_with_inputs_reply]
  cases tgt with
  | reg r =>
    obtain ⟨hc, hs⟩ := ht
    exact step_writeReg_idle hb hr hc hs rfl
  | keyWord j =>
    obtain ⟨hj, hw⟩ := ht
    exact step_writeKey_idle hb hr hj hw rfl

/-- A stored write leaves BUSY and the reset input. -/
theorem writeTarget_busy_inReset (s : State) (v : Word) (tgt : Target) :
    (writeTarget s v tgt).busy = s.busy ∧ (writeTarget s v tgt).inReset = s.inReset := by
  cases tgt with
  | keyWord j => exact ⟨rfl, rfl⟩
  | reg r => cases r <;> exact ⟨rfl, rfl⟩

/-- What host writes store in an idle engine, one after another. -/
def storeAll (s : State) (ws : List (Target × Word)) : State := ws.foldl (fun t w => writeTarget t w.2 w.1) s

theorem storeAll_append (s : State) (ws ws' : List (Target × Word)) :
    storeAll s (ws ++ ws') = storeAll (storeAll s ws) ws' := List.foldl_append

/-- The host writes of a list of targets. -/
def writesOf (c : Config) (ws : List (Target × Word)) : List Input :=
  ws.map fun w => writeAt c (offsetOfTarget w.1) w.2

/-- Host writes of plain targets to an idle engine store them in order, and each is answered `Ok`. -/
theorem run_writesOf (ws : List (Target × Word)) {s : State} (reply : Option BusReply) (rest : List Input)
    (hb : s.busy = false) (hr : s.inReset = false) (hws : ∀ w ∈ ws, PlainTarget s.cfg w.1) :
    core.run ws.length { s with inputs := writesOf s.cfg ws ++ rest, reply := reply } = .next { storeAll s ws with
      inputs := rest, reply := if ws = [] then reply else some .okWrite } := by
  induction ws generalizing s reply with
  | nil => rfl
  | cons w ws ih =>
    obtain ⟨hw, hws⟩ := List.forall_mem_cons.1 hws
    obtain ⟨ebusy, ereset⟩ := writeTarget_busy_inReset s w.2 w.1
    have ecfg := writeTarget_cfg s w.2 w.1
    have first := step_writeTarget_idle w.2 reply (writesOf s.cfg ws ++ rest) hb hr hw
    have more := ih (some .okWrite) (ebusy.trans hb) (ereset.trans hr) (ecfg.symm ▸ hws)
    rw [ite_self, show writesOf (writeTarget s w.2 w.1).cfg ws = writesOf s.cfg ws by rw [ecfg]] at more
    exact (run_succ_of_step first).trans more

/-- A host program of writes of plain targets leaves what they store. -/
theorem run_writesOf_of_storeAll (ws : List (Target × Word)) (hne : ws ≠ []) {s t : State} (ht : storeAll s ws = t)
    (rest : List Input) (hb : s.busy = false) (hr : s.inReset = false) (hws : ∀ w ∈ ws, PlainTarget s.cfg w.1) :
    core.run ws.length { s with inputs := writesOf s.cfg ws ++ rest } =
      .next { t with inputs := rest, reply := some .okWrite } := by
  have run := run_writesOf ws s.reply rest hb hr hws
  rwa [if_neg hne, ht] at run

/-! ## LDCTR and LDTIME -/

/-- The two words of a number below 2^64, most significant first, are its halves (10 R30). -/
theorem setLo32_setHi32_ofNat {n : Nat} (h : n < 2 ^ 64) (x : BitVec 64) :
    setLo32 (setHi32 x (BitVec.ofNat 32 (n / 2 ^ 32))) (BitVec.ofNat 32 n) = BitVec.ofNat 64 n := by
  have hhi : BitVec.ofNat 32 (n / 2 ^ 32) = hi32 (BitVec.ofNat 64 n) := by
    apply BitVec.eq_of_toNat_eq
    rw [hi32_toNat, BitVec.toNat_ofNat, BitVec.toNat_ofNat]
    omega
  have hlo : BitVec.ofNat 32 n = lo32 (BitVec.ofNat 64 n) := by
    apply BitVec.eq_of_toNat_eq
    rw [lo32_toNat, BitVec.toNat_ofNat, BitVec.toNat_ofNat]
    omega
  rw [hhi, hlo, setLo32_setHi32]

/-- The words `LDCTR` writes (30 R89). -/
def counterWords (n : Nat) : List (Target × Word) :=
  [(.reg .counterHi, BitVec.ofNat 32 (n / 2 ^ 32)), (.reg .counterLo, BitVec.ofNat 32 n)]

theorem expandStmt_ldctr {n : Nat} (h : n < 2 ^ 64) (c : Config) :
    expandStmt c (.ldctr n) = .next (writesOf c (counterWords n)) := if_pos (decide_eq_true h)

theorem storeAll_counterWords {n : Nat} (h : n < 2 ^ 64) (s : State) :
    storeAll s (counterWords n) = { s with counter := BitVec.ofNat 64 n } :=
  congrArg (fun counter => { s with counter := counter }) (setLo32_setHi32_ofNat h s.counter)

/-- The words `LDTIME` writes (30 R89). -/
def timeWords (n : Nat) : List (Target × Word) :=
  [(.reg .timeHi, BitVec.ofNat 32 (n / 2 ^ 32)), (.reg .timeLo, BitVec.ofNat 32 n)]

theorem expandStmt_ldtime {n : Nat} (h : n < 2 ^ 64) (c : Config) :
    expandStmt c (.ldtime n) = .next (writesOf c (timeWords n)) := if_pos (decide_eq_true h)

theorem storeAll_timeWords {n : Nat} (h : n < 2 ^ 64) (s : State) :
    storeAll s (timeWords n) = { s with time := BitVec.ofNat 64 n } :=
  congrArg (fun time => { s with time := time }) (setLo32_setHi32_ofNat h s.time)

/-- Settles O53: two register writes, whose halves put together are the number. -/
theorem loadStatementsLoadSixtyFourBits : Obligations.LoadStatementsLoadSixtyFourBits := by
  intro n c
  refine ⟨fun h => ?_, fun h => ⟨_, _, expandStmt_ldctr h c, expandStmt_ldtime h c, ?_⟩⟩
  · have wide : ¬ fits64 n = true := by simpa [fits64] using h
    exact ⟨if_neg wide, if_neg wide⟩
  · rintro s rest rfl hb hr
    constructor
    · exact run_writesOf_of_storeAll (counterWords n) (List.cons_ne_nil _ _) (storeAll_counterWords h s) rest hb hr
        (by simp [PlainTarget, counterWords])
    · exact run_writesOf_of_storeAll (timeWords n) (List.cons_ne_nil _ _) (storeAll_timeWords h s) rest hb hr
        (by simp [PlainTarget, timeWords])

/-! ## Words and their bytes (20 R65) -/

/-- Byte i of the word put together of four (20 R65). -/
theorem wordByte_append4 (b : Fin 4 → Byte) (i : Fin 4) : wordByte (b 0 ++ b 1 ++ b 2 ++ b 3) i.val = b i := by
  obtain ⟨h0, h1, h2, h3⟩ := wordByte_of_bytes (b 0) (b 1) (b 2) (b 3)
  match i with
  | 0 => exact h0
  | 1 => exact h1
  | 2 => exact h2
  | 3 => exact h3

/-- Byte i of the word that holds bytes 4k to 4k+3 of a string (20 R65). -/
theorem wordByte_wordOfBytes {n : Nat} (bytes : Vector Byte n) (k : Nat) (h : 4 * k + 3 < n) {i : Nat} (hi : i < 4) :
    wordByte (wordOfBytes bytes k h) i = bytes[4 * k + i] :=
  wordByte_append4 (fun j => bytes[4 * k + j.val]) ⟨i, hi⟩

/-- A word of a string written over another's: its four bytes are the one's, the others stay (10 R32, R33). -/
theorem setWordOfBytes_wordOfBytes_getElem {n : Nat} (old bytes : Vector Byte n) (k : Nat) (h : 4 * k + 3 < n) {i : Nat}
    (hi : i < n) :
    (setWordOfBytes old k h (wordOfBytes bytes k h))[i] = if i / 4 = k then bytes[i] else old[i] := by
  by_cases hk : i / 4 = k
  · obtain ⟨r, hr, rfl⟩ : ∃ r < 4, i = 4 * k + r := ⟨i % 4, by omega, by omega⟩
    rw [if_pos hk, ← wordByte_wordOfBytes bytes k h hr]
    interval_cases r <;> simp [setWordOfBytes]
  · rw [if_neg hk, setWordOfBytes, Vector.getElem_set_ne _ _ (by omega), Vector.getElem_set_ne _ _ (by omega),
      Vector.getElem_set_ne _ _ (by omega), Vector.getElem_set_ne _ _ (by omega)]

/-- The first m words of a string written over another's, one after another. -/
def copyWords {n : Nat} (old bytes : Vector Byte n) : (m : Nat) → 4 * m ≤ n → Vector Byte n
  | 0, _ => old
  | m + 1, h => setWordOfBytes (copyWords old bytes m (by omega)) m (by omega) (wordOfBytes bytes m (by omega))

theorem copyWords_getElem {n : Nat} (old bytes : Vector Byte n) (m : Nat) (h : 4 * m ≤ n) {i : Nat} (hi : i < n) :
    (copyWords old bytes m h)[i] = if i < 4 * m then bytes[i] else old[i] := by
  induction m with
  | zero => rfl
  | succ m ih =>
    rw [copyWords, setWordOfBytes_wordOfBytes_getElem, ih]
    by_cases hm : i / 4 = m
    · rw [if_pos hm, if_pos (by omega)]
    · rw [if_neg hm]
      exact if_congr (by omega) rfl rfl

/-- All words of a string, written, are the string (10 R32, R33). -/
theorem copyWords_all {m : Nat} (old bytes : Vector Byte (4 * m)) : copyWords old bytes m (Nat.le_refl _) = bytes := by
  apply Vector.ext
  intro i hi
  rw [copyWords_getElem, if_pos hi]

/-! ## LDMSG and LDDIG -/

/-- The words `LDMSG` writes (30 R89). -/
def msgWords (bytes : Vector Byte 8) : List (Target × Word) :=
  [(.reg .msgHi, wordOfBytes bytes 0 (by decide)), (.reg .msgLo, wordOfBytes bytes 1 (by decide))]

theorem expandStmt_ldmsg (c : Config) (bytes : Vector Byte 8) :
    expandStmt c (.ldmsg bytes) = .next (writesOf c (msgWords bytes)) := rfl

theorem storeAll_msgWords (s : State) (bytes : Vector Byte 8) :
    storeAll s (msgWords bytes) = { s with msg := bytes } :=
  congrArg (fun msg => { s with msg := msg }) (copyWords_all (m := 2) s.msg bytes)

/-- The words `LDDIG` writes (30 R89). -/
def digestWords (bytes : Vector Byte 20) : List (Target × Word) :=
  [(.reg (.digest 0), wordOfBytes bytes 0 (by decide)), (.reg (.digest 1), wordOfBytes bytes 1 (by decide)),
    (.reg (.digest 2), wordOfBytes bytes 2 (by decide)), (.reg (.digest 3), wordOfBytes bytes 3 (by decide)),
    (.reg (.digest 4), wordOfBytes bytes 4 (by decide))]

theorem expandStmt_lddig (c : Config) (bytes : Vector Byte 20) :
    expandStmt c (.lddig bytes) = .next (writesOf c (digestWords bytes)) := rfl

theorem storeAll_digestWords (s : State) (bytes : Vector Byte 20) :
    storeAll s (digestWords bytes) = { s with digest := bytes } := by
  have all := copyWords_all (m := 5) s.digest bytes
  simp only [copyWords] at all
  simp only [storeAll, digestWords, List.foldl, writeTarget, writeReg]
  exact congrArg (fun digest => { s with digest := digest }) all

/-! ## LDKEY -/

/-- The word of a key's first four bytes, a missing one 0x00 (30 R89). -/
def firstKeyWord (bytes : List Byte) : Word :=
  bytes.getD 0 0 ++ bytes.getD 1 0 ++ bytes.getD 2 0 ++ bytes.getD 3 0

theorem wordByte_firstKeyWord (bytes : List Byte) {i : Nat} (hi : i < 4) :
    wordByte (firstKeyWord bytes) i = bytes.getD i 0 :=
  wordByte_append4 (fun j => bytes.getD j.val 0) ⟨i, hi⟩

/-- The words `LDKEY` writes: KEY[j], KEY[j+1], …, `n` of them (30 R89). -/
def keyWords : Nat → Nat → List Byte → List (Target × Word)
  | _, 0, _ => []
  | j, n + 1, bytes => (.keyWord j, firstKeyWord bytes) :: keyWords (j + 1) n (bytes.drop 4)

theorem keyWrites_eq_writesOf (c : Config) (j n : Nat) (bytes : List Byte) :
    keyWrites c j n bytes = writesOf c (keyWords j n bytes) := by
  induction n generalizing j bytes with
  | zero => rfl
  | succ n ih => exact congrArg (_ :: ·) (ih (j + 1) (bytes.drop 4))

theorem plainTarget_of_mem_keyWords {c : Config} {j n : Nat} (hn : 4 * (j + n) ≤ c.keyRamBytes)
    (hmax : c.keyRamBytes ≤ 65536) {bytes : List Byte} {w : Target × Word} (hw : w ∈ keyWords j n bytes) :
    PlainTarget c w.1 := by
  induction n generalizing j bytes with
  | zero => cases hw
  | succ n ih =>
    rcases List.mem_cons.1 hw with rfl | hw
    · simp only [PlainTarget, keyWindow, windowBytes]
      omega
    · exact ih (by omega) hw

/-- What `LDKEY`'s words leave: the key RAM, with the key's bytes from index 4j on, padded with 0x00 (30 R89). -/
theorem storeAll_keyWords (n : Nat) {s : State} (hwf : s.key.wf) (j : Nat) (bytes : List Byte) :
    ∃ key, storeAll s (keyWords j n bytes) = { s with key := key } ∧
      ∀ a, Memory.read key a = if 4 * j ≤ a ∧ a < 4 * (j + n) then bytes.getD (a - 4 * j) 0 else s.key.read a := by
  induction n generalizing s j bytes with
  | zero => exact ⟨s.key, rfl, fun a => (if_neg (by omega)).symm⟩
  | succ n ih =>
    obtain ⟨key, hkey, hread⟩ := ih (s := { s with key := s.key.writeWord j (firstKeyWord bytes) })
      (memory_writeWord_wf hwf j _) (j + 1) (bytes.drop 4)
    refine ⟨key, hkey, fun a => ?_⟩
    rw [hread, memory_read_writeWord hwf]
    by_cases ha : a / 4 = j
    · rw [if_neg (by omega), if_pos ha, if_pos (by omega), wordByte_firstKeyWord bytes (by omega)]
      congr 1
      omega
    · rw [if_neg ha]
      by_cases hin : 4 * (j + 1) ≤ a ∧ a < 4 * (j + 1 + n)
      · rw [if_pos hin, if_pos (by omega)]
        simp only [List.getD_eq_getElem?_getD, List.getElem?_drop]
        congr 2
        omega
      · rw [if_neg hin, if_neg (by omega)]

/-- The writes of `LDKEY`: the key's words, then its length (30 R89). -/
def ldkeyWords (bytes : List Byte) : List (Target × Word) :=
  keyWords 0 ((bytes.length + 3) / 4) bytes ++ [(.reg .keyLen, BitVec.ofNat 32 bytes.length)]

theorem expandStmt_ldkey {bytes : List Byte} (h : bytes.length ≤ 65536) (c : Config) :
    expandStmt c (.ldkey bytes) = .next (writesOf c (ldkeyWords bytes)) := by
  have fits : keyFitsWindow bytes = true := decide_eq_true h
  rw [expandStmt, loadKey, if_pos fits, keyWrites_eq_writesOf, ldkeyWords, writesOf, writesOf, List.map_append]
  rfl

/-- A legal part that can hold the key's bytes has all words they take up (00_scope R8). -/
theorem plainTarget_of_mem_ldkeyWords {c : Config} (hl : c.legal) {bytes : List Byte}
    (hlen : bytes.length ≤ c.keyRamBytes) : ∀ w ∈ ldkeyWords bytes, PlainTarget c w.1 := by
  obtain ⟨_, h4, _, hmax⟩ := hl
  intro w hw
  rcases List.mem_append.1 hw with hw | hw
  · exact plainTarget_of_mem_keyWords (by omega) hmax hw
  · rw [List.mem_singleton.1 hw]
    exact ⟨nofun, nofun⟩

/-- What `LDKEY` leaves: KEY_LEN, and the key RAM with the key's bytes from index 0 on, padded with 0x00 (30 R89). -/
theorem storeAll_ldkeyWords {s : State} (hwf : s.key.wf) (bytes : List Byte) :
    ∃ key, storeAll s (ldkeyWords bytes) = { s with key := key, keyLen := BitVec.ofNat 32 bytes.length } ∧
      ∀ a, Memory.read key a = if a < 4 * ((bytes.length + 3) / 4) then bytes.getD a 0 else s.key.read a := by
  obtain ⟨key, hkey, hread⟩ := storeAll_keyWords ((bytes.length + 3) / 4) hwf 0 bytes
  refine ⟨key, ?_, fun a => ?_⟩
  · rw [ldkeyWords, storeAll_append, hkey]
    rfl
  · rw [hread, Nat.zero_add]
    simp

/-- Settles O54: the key's words and then its length, all host writes of plain targets. -/
theorem ldkeyLoadsTheKey : Obligations.LdkeyLoadsTheKey := by
  intro s bytes rest ⟨hl, _, _, hwf, _⟩ hb hr hlen
  have hfit : bytes.length ≤ 65536 := by
    obtain ⟨_, _, _, hmax⟩ := hl
    exact hlen.trans hmax
  obtain ⟨key, hkey, hread⟩ := storeAll_ldkeyWords hwf bytes
  have run := run_writesOf_of_storeAll (ldkeyWords bytes) (by simp [ldkeyWords]) hkey rest hb hr
    (plainTarget_of_mem_ldkeyWords hl hlen)
  refine ⟨_, _, key, expandStmt_ldkey hfit s.cfg, run, fun i h => ?_, fun a h h' => ?_, fun a h => ?_⟩
  · rw [hread, if_pos (by omega), List.getD_eq_getElem _ _ h]
  · rw [hread, if_pos h', List.getD_eq_default _ _ h]
    rfl
  · rw [hread, if_neg (by omega)]

/-! ## CLRST, SRST and WAITIRQ -/

/-- CLRST: STATUS's write-one-to-clear of DONE, ERR and OVR while idle, of OVR alone while busy (10 R27). -/
theorem step_clrst {s : State} {rest : List Input} (hr : s.inReset = false)
    (hi : s.inputs = writeRegAt s.cfg .status 0x00000106#32 :: rest) :
    step s = .next (if s.busy then { s with ovr := false, inputs := rest, reply := some .okWrite }
      else { s with
        done := false, err := false, errcode := 0, ovr := false, inputs := rest, reply := some .okWrite }) := by
  rw [step_writeReg (r := .status) hr hi]
  cases s.busy <;> simp [busWrite, clearOvr, acknowledge]

/-- SRST: the soft reset, which keeps the model's own fields (70 R213, log 9). -/
theorem step_srst {s : State} {rest : List Input} (hr : s.inReset = false)
    (hi : s.inputs = writeRegAt s.cfg .ctrl 0x80000000#32 :: rest) :
    step s = .next { State.resetOf s.cfg with inputs := rest, reply := some .okWrite } := by
  rw [step_writeCtrl hr hi, exec_decode_srst rfl, resetState, hr]
  rfl

/-- WAITIRQ ends at once when `irq` is 1 (30 R89, 60 R193). -/
theorem step_waitIrq_of_irq {s : State} {rest : List Input} (hi : s.inputs = .waitIrq :: rest) (h : s.irq = true) :
    step s = .next { s with inputs := rest } := by
  simp [step, turn, hi, waitIrq, h]

/-- Settles O60, one lemma per pseudo-instruction. -/
theorem otherPseudoInstructionsLeaveTheirEffects : Obligations.OtherPseudoInstructionsLeaveTheirEffects := by
  intro s rest hr
  refine ⟨fun bytes hb => ⟨_, expandStmt_ldmsg s.cfg bytes, ?_⟩,
    fun bytes hb => ⟨_, expandStmt_lddig s.cfg bytes, ?_⟩,
    ⟨_, rfl, run_succ_of_step (step_clrst hr rfl)⟩,
    ⟨_, rfl, run_succ_of_step (step_srst hr rfl)⟩,
    rfl, fun hi => ⟨step_waitIrq_of_irq hi, fun hf hb he => waitIrq_ends hf hb hr he hi⟩⟩
  · exact run_writesOf_of_storeAll (msgWords bytes) (List.cons_ne_nil _ _) (storeAll_msgWords s bytes) rest hb hr
      (by simp [PlainTarget, msgWords])
  · exact run_writesOf_of_storeAll (digestWords bytes) (List.cons_ne_nil _ _) (storeAll_digestWords s bytes) rest hb hr
      (by simp [PlainTarget, digestWords])

end Sys2Proof.Machine
end

section
/-! PROOFS. The statements about the HMAC-SHA-1 unit (40_hmac_engine.md): the message schedule, the padding, HMAC's key
block and hash inputs, SHA-1's check values, and the MAC command. -/

namespace Sys2Proof.Machine

/-! ## The message schedule (40 R105, R108) -/

/-- The model's rotation is the library's (40 R111). -/
theorem rotl_eq_rotateLeft {n : Nat} (h : n < 32) (x : Word) : rotl n x = x.rotateLeft n := by
  rw [BitVec.rotateLeft_def, Nat.mod_eq_of_lt h, rotl]

@[simp] theorem bytesToWords_length (n : Nat) (bytes : List Byte) : (bytesToWords n bytes).length = n := by
  induction n generalizing bytes with
  | zero => rfl
  | succ n ih => simp [bytesToWords, ih]

/-- Word t of a byte string is its bytes 4t to 4t+3 (40 R105). -/
theorem bytesToWords_getD {n t : Nat} (h : t < n) (bytes : List Byte) :
    (bytesToWords n bytes).getD t 0 = BitVec.ofNat 32 (be ((bytes.drop (4 * t)).take 4)) := by
  induction n generalizing t bytes with
  | zero => omega
  | succ n ih =>
    cases t with
    | zero => rfl
    | succ t => rw [bytesToWords, List.getD_cons_succ, ih (by omega), List.drop_drop, Nat.mul_succ, Nat.add_comm 4]

@[simp] theorem extendSchedule_length (n : Nat) (ws : List Word) : (extendSchedule n ws).length = n + ws.length := by
  induction n generalizing ws with
  | zero => simp [extendSchedule]
  | succ n ih => rw [extendSchedule, ih, List.length_cons]; omega

/-- The extension only puts words before the given ones. -/
theorem suffix_extendSchedule (n : Nat) (ws : List Word) : ws <:+ extendSchedule n ws := by
  induction n generalizing ws with
  | zero => exact List.suffix_refl ws
  | succ n ih => exact (List.suffix_cons _ ws).trans (ih _)

/-- The recurrence of 40 R108 on a list of words, newest first: each word with sixteen older ones is made of those 3, 8, 14
and 16 places before it. -/
def MeetsRecurrence (ws : List Word) : Prop :=
  ∀ i, i + 16 < ws.length →
    ws.getD i 0 = rotl 1 (ws.getD (i + 3) 0 ^^^ ws.getD (i + 8) 0 ^^^ ws.getD (i + 14) 0 ^^^ ws.getD (i + 16) 0)

/-- Sixteen words meet it: none has sixteen older ones. -/
theorem meetsRecurrence_of_length_le {ws : List Word} (h : ws.length ≤ 16) : MeetsRecurrence ws :=
  fun i hi => by omega

/-- The extension keeps it: the word it adds is made by the recurrence, and the others stand one place further on. -/
theorem meetsRecurrence_extendSchedule (n : Nat) {ws : List Word} (h : MeetsRecurrence ws) :
    MeetsRecurrence (extendSchedule n ws) := by
  induction n generalizing ws with
  | zero => exact h
  | succ n ih =>
    refine ih fun i hi => ?_
    cases i with
    | zero => rfl
    | succ i =>
      rw [List.length_cons] at hi
      exact h i (by omega)

@[simp] theorem messageSchedule_length (block : List Byte) : (messageSchedule block).length = 80 := by
  simp [messageSchedule]

/-- The first sixteen words of the schedule are the block's (40 R105, R108). -/
theorem messageSchedule_getD_of_lt {t : Nat} (h : t < 16) (block : List Byte) :
    (messageSchedule block).getD t 0 = BitVec.ofNat 32 (be ((block.drop (4 * t)).take 4)) := by
  obtain ⟨later, hl⟩ := suffix_extendSchedule 64 (bytesToWords 16 block).reverse
  rw [messageSchedule, ← hl, List.reverse_append, List.reverse_reverse, List.getD_append _ _ _ _ (by simpa using h),
    bytesToWords_getD h]

/-- Word t of the schedule, counted from the newest. -/
theorem messageSchedule_getD {t : Nat} (h : t < 80) (block : List Byte) :
    (messageSchedule block).getD t 0 = (extendSchedule 64 (bytesToWords 16 block).reverse).getD (79 - t) 0 := by
  rw [messageSchedule, List.getD_reverse _ (by simpa using h)]
  simp

/-- Settles O57: the schedule is sixteen words of the block extended 64 times, and the extension keeps both the words it
starts from and the recurrence. -/
theorem messageScheduleRecurrence : Obligations.MessageScheduleRecurrence := by
  intro block _
  refine ⟨messageSchedule_length block, fun t ht => messageSchedule_getD_of_lt ht block, fun t h16 h80 => ?_⟩
  have hrec : MeetsRecurrence (extendSchedule 64 (bytesToWords 16 block).reverse) :=
    meetsRecurrence_extendSchedule 64 (meetsRecurrence_of_length_le (by simp))
  have hlen : (extendSchedule 64 (bytesToWords 16 block).reverse).length = 80 := by simp
  rw [messageSchedule_getD h80, hrec (79 - t) (by omega), rotl_eq_rotateLeft (by decide),
    messageSchedule_getD (by omega), messageSchedule_getD (by omega), messageSchedule_getD (by omega),
    messageSchedule_getD (by omega), show 79 - (t - 3) = 79 - t + 3 by omega, show 79 - (t - 8) = 79 - t + 8 by omega,
    show 79 - (t - 14) = 79 - t + 14 by omega, show 79 - (t - 16) = 79 - t + 16 by omega]

/-! ## The padding (40 R104) -/

/-- The zero bytes complete a block. -/
theorem padZeros_completes (len : Nat) : (len + 1 + padZeros len + 8) % 64 = 0 := by
  rw [padZeros]
  omega

/-- No smaller number of zero bytes does. -/
theorem padZeros_le {len k : Nat} (h : (len + 1 + k + 8) % 64 = 0) : padZeros len ≤ k := by
  rw [padZeros]
  omega

/-- The padded string is the least number of blocks that holds 9 bytes more. -/
theorem shaPad_length (m : List Byte) : (shaPad m).length = 64 * ((m.length + 72) / 64) := by
  have hlen : (shaPad m).length = m.length + 1 + padZeros m.length + 8 := by
    simp only [shaPad, List.length_append, List.length_cons, List.length_replicate, bytesBe_length]
    omega
  rw [hlen, padZeros]
  omega

/-- A string of 56 to 119 bytes pads to two blocks. -/
theorem shaPad_length_two_blocks {m : List Byte} (hl : 56 ≤ m.length) (hu : m.length ≤ 119) :
    (shaPad m).length = 128 := by
  rw [shaPad_length]
  omega

/-- Settles O58: the number of zero bytes is `padZeros`, which completes a block and is the least that does. -/
theorem paddingFillsWholeBlocks : Obligations.PaddingFillsWholeBlocks := by
  intro m
  refine ⟨padZeros m.length, rfl, padZeros_completes m.length, fun k hk h => ?_, fun hm => ?_, shaPad_length_two_blocks⟩
  · exact absurd (padZeros_le h) (by omega)
  · rw [shaPad_length]
    omega

/-! ## HMAC's key block and hash inputs (40 R101 to R103) -/

/-- A key of at most a block is padded with zero bytes. -/
theorem keyBlock_of_le {k : List Byte} (h : k.length ≤ 64) :
    keyBlock k = k ++ List.replicate (64 - k.length) 0x00#8 := if_pos h

/-- A longer key is hashed, and its digest padded. -/
theorem keyBlock_of_gt {k : List Byte} (h : 64 < k.length) :
    keyBlock k = (sha1 k).toList ++ List.replicate 44 0x00#8 := if_neg (Nat.not_le.2 h)

@[simp] theorem keyBlock_length (k : List Byte) : (keyBlock k).length = 64 := by
  rcases Nat.lt_or_ge 64 k.length with h | h
  · simp [keyBlock_of_gt h]
  · rw [keyBlock_of_le h, List.length_append, List.length_replicate]
    omega

/-- The exclusive or with a repeated byte is that byte's on every byte. -/
theorem xorBytes_replicate (b : List Byte) (x : Byte) : xorBytes b (List.replicate b.length x) = b.map (· ^^^ x) := by
  induction b with
  | nil => rfl
  | cons y b ih => simpa [xorBytes, List.replicate_succ] using ih

/-- The key block under a repeated byte (40 R103). -/
theorem xorBytes_keyBlock_replicate (k : List Byte) (x : Byte) :
    xorBytes (keyBlock k) (List.replicate blockBytes x) = (keyBlock k).map (· ^^^ x) := by
  rw [← xorBytes_replicate, keyBlock_length, blockBytes]

/-- HMAC-SHA-1 hashes the outer pad and the hash of the inner pad and the message (40 R101). -/
theorem hmacSha1_eq (k m : List Byte) :
    hmacSha1 k m = sha1 ((keyBlock k).map (· ^^^ 0x5C#8) ++ (sha1 ((keyBlock k).map (· ^^^ 0x36#8) ++ m)).toList) := by
  rw [hmacSha1, opad, ipad, xorBytes_keyBlock_replicate, xorBytes_keyBlock_replicate]

/-- Settles O59: the inner input is 64 + 8 bytes and the outer 64 + 20, two blocks each. -/
theorem hmacKeyBlockAndInputs : Obligations.HmacKeyBlockAndInputs := by
  intro k m hm
  refine ⟨keyBlock_length k, keyBlock_of_le, keyBlock_of_gt, _, _, rfl, rfl, hmacSha1_eq k m, ?_, ?_⟩
  · exact shaPad_length_two_blocks (by simp [hm]) (by simp [hm])
  · exact shaPad_length_two_blocks (by simp) (by simp)

/-! ## SHA-1's check values (40 R110) -/

/-- Settles O56: each digest is computed, the last two over two chained blocks. -/
theorem sha1CheckValues : Obligations.Sha1CheckValues :=
  ⟨by decide +kernel, by decide +kernel, by decide +kernel, by decide +kernel⟩

/-! ## The MAC command (40 R100, R112, R114) -/

/-- A command that uses the key completes with its stages when the check passes, and with the check's code and cleared
outputs when it fails (60 R182, R186, R187). -/
theorem withKeyCheck_next (stages : State → State) (s : State) :
    withKeyCheck stages s =
      .next (if cryptoCheck s = 0 then succeed (stages s) else failWith (cryptoCheck s) (clearOutputs s)) := by
  rcases withKeyCheck_cases stages s with ⟨h, e⟩ | ⟨h, e⟩ | ⟨h, e⟩ <;> (rw [e, h]; rfl)

/-- The check passes with a usable key (60 R182). -/
theorem cryptoCheck_of_keyUsable {s : State} (h : s.keyUsable) : cryptoCheck s = 0 := by
  obtain ⟨hc, hl, he⟩ := h
  rcases cryptoCheck_cases s with ⟨h, _⟩ | ⟨_, h⟩ | ⟨_, _, h | ⟨hz, hr⟩⟩
  · exact h
  · simp [hc] at h
  · omega
  · rcases he with he | he
    · exact absurd hz he
    · simp [hr] at he

/-- The engine's turn with MAC outstanding (60 R185). -/
theorem engineStep_mac {s : State} (hb : s.busy = true) (hr : s.inReset = false) (hp : s.pending = 0x2#4) :
    engineStep s = withKeyCheck macStage s := by
  rw [engineStep, if_pos ⟨hb, hr⟩, completePending, hp]
  rfl

/-- Settles O24: MAC is accepted while idle, its check passes with a usable key, and its one stage writes the digest. -/
theorem macWritesTheHmac : Obligations.MacWritesTheHmac := by
  intro irqEn s hb hr hk
  refine ⟨exec_commandOf_idle hb 0x2#4 irqEn, keyBytes s, keyBytes_length s, keyBytes_getElem s, ?_⟩
  have hcheck : cryptoCheck (s.acceptedWith 0x2#4 irqEn) = 0 := cryptoCheck_of_keyUsable hk
  have hstep : engineStep (s.acceptedWith 0x2#4 irqEn) = withKeyCheck macStage (s.acceptedWith 0x2#4 irqEn) :=
    engineStep_mac rfl hr rfl
  rw [hstep, withKeyCheck_next, if_pos hcheck]
  rfl

/-- Settles O39: the check depends on the part and KEY_LEN, the digest on the key bytes and the message. -/
theorem macDependsOnKeyAndMessageOnly : Obligations.MacDependsOnKeyAndMessageOnly := by
  intro s t hbs hbt hrs hrt hps hpt hcfg hkey hmsg
  obtain ⟨hlen, hbytes⟩ := hkey
  have hcheck : cryptoCheck s = cryptoCheck t := cryptoCheck_congr hcfg hlen
  refine ⟨_, _, (engineStep_mac hbs hrs hps).trans (withKeyCheck_next _ s),
    (engineStep_mac hbt hrt hpt).trans (withKeyCheck_next _ t), ?_⟩
  rw [hcheck]
  by_cases hpass : cryptoCheck t = 0
  · rw [if_pos hpass, if_pos hpass]
    simp [keyBytes_congr hlen hbytes, hmsg]
  · rw [if_neg hpass, if_neg hpass]
    exact ⟨rfl, rfl⟩

end Sys2Proof.Machine
end

section
/-! PROOFS. The statements about the codec (41_otp_codec.md): the counter encoder, the dynamic-truncation selector, the
modulo-reduction pipeline and the time-step divider, each a fact about the pure function, then the command. -/

namespace Sys2Proof.Machine

/-- The engine's turn after an acceptance completes the accepted command (60 R185). -/
theorem engineStep_acceptedWith {s : State} (hr : s.inReset = false) (op : BitVec 4) (irqEn : Bool) :
    engineStep (s.acceptedWith op irqEn) = completePending (s.acceptedWith op irqEn) := if_pos ⟨rfl, hr⟩

/-! ## ENC (41 R130, R131) -/

/-- The encoded counter is the eight bytes of the counter's value (41 R130). -/
theorem be_encodeCounter (c : BitVec 64) : be (encodeCounter c).toList = c.toNat :=
  (be_bytesBe c.toNat 8).trans (Nat.mod_eq_of_lt c.isLt)

/-- A byte string of eight bytes is its first word above its second (20 R66). -/
theorem be_eq_words (m : Vector Byte 8) :
    be m.toList = (wordOfBytes m 0 (by decide)).toNat * 2 ^ 32 + (wordOfBytes m 1 (by decide)).toNat := by
  rw [wordOfBytes_toNat, wordOfBytes_toNat]
  have hsplit := be_append (m.toList.take 4) (m.toList.drop 4)
  rw [List.take_append_drop, List.length_drop, Vector.length_toList] at hsplit
  have hlow : (m.toList.drop (4 * 1)).take 4 = m.toList.drop 4 := List.take_of_length_le (by simp)
  rw [hsplit, hlow]
  rfl

/-- A message with the counter's value has the counter's halves as its words (20 R66). -/
theorem wordOfBytes_eq_halves {m : Vector Byte 8} {c : BitVec 64} (h : be m.toList = c.toNat) :
    wordOfBytes m 0 (by decide) = hi32 c ∧ wordOfBytes m 1 (by decide) = lo32 c := by
  rw [be_eq_words] at h
  refine ⟨BitVec.eq_of_toNat_eq ?_, BitVec.eq_of_toNat_eq ?_⟩
  · rw [hi32_toNat]
    omega
  · rw [lo32_toNat]
    omega

/-- Settles O23: the message's value is the counter's, and so its two words are the counter's halves. -/
theorem encWritesTheBigEndianCounter : Obligations.EncWritesTheBigEndianCounter := by
  intro irqEn s hb hr
  exact ⟨exec_commandOf_idle hb 0x1#4 irqEn, encodeCounter s.counter, engineStep_acceptedWith hr 0x1#4 irqEn,
    be_encodeCounter s.counter, wordOfBytes_eq_halves (be_encodeCounter s.counter)⟩

/-! ## TRUNC (41 R132 to R134) -/

/-- The offset is the low nibble of the last byte (41 R132, step 1). -/
theorem truncOffset_toNat (d : Vector Byte 20) : (truncOffset d).toNat = d[19].toNat % 16 := by
  rw [truncOffset, BitVec.toNat_setWidth, BitVec.toNat_and, show (0x0F#8).toNat = 2 ^ 4 - 1 from rfl,
    Nat.and_two_pow_sub_one_eq_mod, Nat.mod_mod]

/-- The window: the four bytes from an offset on (41 R132, step 2). -/
def truncWindow (d : Vector Byte 20) (o : Nat) : List Byte := (d.toList.drop o).take 4

/-- An offset of four bits leaves room for the four bytes (41 R133). -/
theorem truncWindow_eq (d : Vector Byte 20) {o : Nat} (h : o < 16) :
    truncWindow d o = [d[o], d[o + 1], d[o + 2], d[o + 3]] := by
  apply List.ext_getElem
  · simp [truncWindow]
    omega
  · intro i _ hi
    simp at hi
    interval_cases i <;> simp [truncWindow]

/-- The last byte is in no window (41 R133). -/
theorem truncWindow_set_last (d : Vector Byte 20) (b : Byte) {o : Nat} (h : o < 16) :
    truncWindow (d.set 19 b) o = truncWindow d o := by
  simp only [truncWindow, Vector.toList_set, List.take_drop]
  rw [List.take_set_of_le (by omega)]

/-- Four bytes shifted into their lanes are the four bytes put together. -/
theorem or_shiftLeft_eq_append (a b c e : Byte) :
    (a.setWidth 32 <<< 24) ||| (b.setWidth 32 <<< 16) ||| (c.setWidth 32 <<< 8) ||| e.setWidth 32 =
      a ++ b ++ c ++ e := by
  have h := BitVec.setWidth_append_append_append_eq_shiftLeft_setWidth_or (w'''' := 32) (b := a) (b' := b) (b'' := c)
    (b''' := e)
  rw [BitVec.setWidth_eq] at h
  exact h.symm

/-- The combined word is the window's value without its top bit (41 R132, step 3). -/
theorem truncWord_toNat (d : Vector Byte 20) :
    (truncWord d).toNat = be (truncWindow d (truncOffset d).toNat) % 2 ^ 31 := by
  have hmask (x : Byte) : (x &&& 0x7F#8).toNat = x.toNat % 2 ^ 7 :=
    (BitVec.toNat_and ..).trans (Nat.and_two_pow_sub_one_eq_mod _ 7)
  rw [truncWord, or_shiftLeft_eq_append, append4_toNat, truncWindow_eq d (truncOffset d).isLt]
  simp only [be, List.foldl, hmask]
  omega

/-- The 31-bit result is the combined word (41 R132, step 4). -/
theorem truncResult_toNat (d : Vector Byte 20) : (truncResult d).toNat = (truncWord d).toNat := by
  rw [truncResult, BitVec.toNat_setWidth, truncWord_toNat, Nat.mod_mod]

/-- Settles O25: the offset and the result are those of the digest, as numbers. -/
theorem truncSelectsTheWindow : Obligations.TruncSelectsTheWindow := by
  intro irqEn s hb hr
  exact ⟨exec_commandOf_idle hb 0x3#4 irqEn, truncOffset s.digest, truncResult s.digest,
    engineStep_acceptedWith hr 0x3#4 irqEn, truncOffset_toNat s.digest,
    (truncResult_toNat s.digest).trans (truncWord_toNat s.digest)⟩

/-- Settles O42: the offset depends on the last byte's low nibble only, and the window does not reach the last byte. -/
theorem truncationWindowBounds : Obligations.TruncationWindowBounds := by
  intro d b hnibble
  have hlt : (truncOffset d).toNat < 16 := (truncOffset d).isLt
  have hoffset : truncOffset (d.set 19 b) = truncOffset d := by
    apply BitVec.eq_of_toNat_eq
    rw [truncOffset_toNat, truncOffset_toNat, Vector.getElem_set_self, hnibble]
  refine ⟨hoffset, ?_, ?_, by omega⟩
  · apply BitVec.eq_of_toNat_eq
    rw [truncResult_toNat, truncResult_toNat, truncWord_toNat, truncWord_toNat, hoffset, truncWindow_set_last d b hlt]
  · rw [truncWord_toNat]
    omega

/-! ## MOD (41 R135, R136) -/

/-- The remainder fits CODE (41 R135). -/
theorem reduce_toNat (t : BitVec 31) : (reduce t).toNat = t.toNat % 1000000 := by
  rw [reduce, BitVec.toNat_ofNat, modulus]
  omega

/-- Settles O26: the remainder is below 10^6 and so is not cut to 20 bits. -/
theorem modReducesModuloAMillion : Obligations.ModReducesModuloAMillion := by
  intro irqEn s hb hr
  exact ⟨exec_commandOf_idle hb 0x4#4 irqEn, reduce s.trunc, engineStep_acceptedWith hr 0x4#4 irqEn,
    reduce_toNat s.trunc⟩

/-! ## FMT (41 R137, R138) -/

/-- The character of a digit (41 R137). -/
theorem digit_toNat (v : Nat) : (0x30#8 + BitVec.ofNat 8 (v % 10)).toNat = 0x30 + v % 10 := by
  rw [BitVec.toNat_add, BitVec.toNat_ofNat, BitVec.toNat_ofNat]
  omega

/-- Every character is a decimal digit, for any number of them. -/
theorem asciiDigits_digit {v n : Nat} {ch : Byte} (h : ch ∈ asciiDigits v n) : 0x30 ≤ ch.toNat ∧ ch.toNat ≤ 0x39 := by
  induction n generalizing v with
  | zero => simp [asciiDigits] at h
  | succ n ih =>
    rw [asciiDigits, List.mem_append, List.mem_singleton] at h
    rcases h with h | rfl
    · exact ih h
    · rw [digit_toNat]
      omega

/-- The numeral of the last n digits is the value modulo 10^n. -/
theorem asciiDigits_numeral (v n : Nat) :
    (asciiDigits v n).foldl (fun acc ch => acc * 10 + (ch.toNat - 0x30)) 0 = v % 10 ^ n := by
  induction n generalizing v with
  | zero => simp [asciiDigits, Nat.mod_one]
  | succ n ih =>
    rw [asciiDigits, List.foldl_append, ih, List.foldl_cons, List.foldl_nil, digit_toNat, Nat.pow_succ', Nat.mod_mul]
    omega

/-- The rendered text is decimal digits only (41 R137). -/
theorem allDigits_render (c : BitVec 20) : allDigits (render c) := fun _ => asciiDigits_digit

/-- The rendered text is the code's numeral, leading zeros and all (41 R137). -/
theorem decimalValue_render (c : BitVec 20) : decimalValue (render c) = c.toNat % 1000000 :=
  (asciiDigits_numeral (c.toNat % modulus) digits).trans (Nat.mod_mod _ _)

/-- Settles O27: six rendered digits of a value below 10^6 are its whole numeral. -/
theorem fmtRendersSixDigits : Obligations.FmtRendersSixDigits := by
  intro irqEn s hb hr
  exact ⟨exec_commandOf_idle hb 0x5#4 irqEn, render s.code, engineStep_acceptedWith hr 0x5#4 irqEn,
    allDigits_render s.code, decimalValue_render s.code⟩

/-! ## TSTEP (41 R139, R140) -/

/-- The quotient fits COUNTER (41 R139). -/
theorem timeStep_toNat (t : BitVec 64) : (timeStep t).toNat = t.toNat / 30 := by
  rw [timeStep, BitVec.toNat_ofNat, timeStepSeconds]
  omega

/-- The largest time gives a quotient below 2^60 (41 R139). -/
theorem timeStep_lt (t : BitVec 64) : (timeStep t).toNat < 2 ^ 60 := by
  rw [timeStep_toNat]
  omega

/-- Settles O28: the quotient of a 64-bit time by 30 is below 2^60. -/
theorem tstepDividesTheTime : Obligations.TstepDividesTheTime := by
  intro irqEn s hb hr
  exact ⟨exec_commandOf_idle hb 0x6#4 irqEn, timeStep s.time, engineStep_acceptedWith hr 0x6#4 irqEn,
    timeStep_toNat s.time, timeStep_lt s.time⟩

end Sys2Proof.Machine
end

section
/-! PROOFS. The statements about the composite commands (42_hotp_totp.md): HOTP and TOTP run their stages, equal them as
separate commands, are determined by key and counter or time, and leave six digits or six zero bytes. -/

namespace Sys2Proof.Machine

/-! ## The stages as equations (42 R161, R163) -/

/-- The key in terms of the two state elements it reads (40 R100). -/
theorem keyBytes_eq (s : State) : keyBytes s = (List.range s.keyLen.toNat).map s.key.read := rfl

/-- The MAC of the encoded counter, HOTP's digest (42 R161). -/
def hotpDigest (s : State) : Vector Byte 20 := hmacSha1 (keyBytes s) (encodeCounter s.counter).toList

/-- HOTP's five stages write six registers, each a function of the counter and of HOTP's digest, and nothing else
(42 R161). -/
theorem hotpStages_eq (s : State) :
    hotpStages s = { s with
      msg := encodeCounter s.counter
      digest := hotpDigest s
      offset := truncOffset (hotpDigest s)
      trunc := truncResult (hotpDigest s)
      code := reduce (truncResult (hotpDigest s))
      ascii := render (reduce (truncResult (hotpDigest s))) } := by
  ext1 <;> simp [hotpStages, hotpDigest, keyBytes_eq]

/-- HOTP's digest depends on the key and COUNTER alone (42 R164). -/
theorem hotpDigest_congr {s t : State} (hkey : sameKey s t) (hcounter : s.counter = t.counter) :
    hotpDigest s = hotpDigest t := by
  obtain ⟨hlen, hbytes⟩ := hkey
  rw [hotpDigest, hotpDigest, keyBytes_congr hlen hbytes, hcounter]

/-! ## The completion step with a usable key (60 R182, R185, R187) -/

/-- The stages of the command `op`; none for a reserved code (41, 42 R161, R163). -/
def stagesOf (op : BitVec 4) : State → State :=
  match op with
  | 0x1#4 => encStage
  | 0x2#4 => macStage
  | 0x3#4 => truncStage
  | 0x4#4 => modStage
  | 0x5#4 => fmtStage
  | 0x6#4 => tstepStage
  | 0x8#4 => hotpStages
  | 0x9#4 => totpStages
  | _ => id

/-- With a usable key, a command whose code is not reserved succeeds with its stages. -/
theorem completePending_of_keyUsable {s : State} (hk : s.keyUsable) (hop : ¬isReservedOp s.pending) :
    completePending s = .next (succeed (stagesOf s.pending s)) := by
  obtain ⟨t, ht, _⟩ := completePending_cases s
  rw [ht]
  cases completion_of_completePending ht with
  | enc hp | mac hp | trunc hp | mod hp | fmt hp | tstep hp | hotp hp | totp hp => rw [hp]; rfl
  | keyCheckFailed _ hfail => simp [cryptoCheck_of_keyUsable hk, unavailable, keyImport] at hfail
  | reserved hp => exact absurd hp hop

/-- Settles O29: HOTP is accepted while idle, and its five stages write the six registers. -/
theorem hotpRunsItsFiveStages : Obligations.HotpRunsItsFiveStages := by
  intro irqEn s hb hr hk
  refine ⟨exec_commandOf_idle hb 0x8#4 irqEn, keyBytes s, keyBytes_length s, keyBytes_getElem s, ?_⟩
  have hturn : engineStep (s.acceptedWith 0x8#4 irqEn) = .next (succeed (hotpStages (s.acceptedWith 0x8#4 irqEn))) :=
    (engineStep_acceptedWith hr 0x8#4 irqEn).trans (completePending_of_keyUsable hk (by decide : ¬isReservedOp 0x8#4))
  rw [hturn, hotpStages_eq]
  rfl

/-- Settles O30: TOTP is accepted while idle, and HOTP's stages read the counter its time step has written. -/
theorem totpRunsTheTimeStepThenHotp : Obligations.TotpRunsTheTimeStepThenHotp := by
  intro irqEn s hb hr hk
  refine ⟨exec_commandOf_idle hb 0x9#4 irqEn, keyBytes s, timeStep s.time, keyBytes_length s, keyBytes_getElem s,
    timeStep_toNat s.time, ?_⟩
  have hturn : engineStep (s.acceptedWith 0x9#4 irqEn) = .next (succeed (totpStages (s.acceptedWith 0x9#4 irqEn))) :=
    (engineStep_acceptedWith hr 0x9#4 irqEn).trans (completePending_of_keyUsable hk (by decide : ¬isReservedOp 0x9#4))
  rw [hturn, totpStages, hotpStages_eq]
  rfl

/-! ## The composites and their stages as separate commands (42 R161, R163) -/

/-- Commands written to CTRL one after another, each completed before the next (20 R72). -/
def commandInputs (c : Config) (irqEn : Bool) (ops : List (BitVec 4)) : List Input :=
  ops.flatMap fun op =>
    [.bus { addr := c.base + 0x004, lanes := 0xF#4, op := .write (encode (commandOf op irqEn)) }, .engine]

/-- What the command `op` leaves that an idle engine accepts and completes with its stages, its two inputs taken
(60 R184, R185, R187). -/
def afterCommand (irqEn : Bool) (s : State) (op : BitVec 4) : State :=
  succeed (stagesOf op (accept op irqEn { s with inputs := s.inputs.drop 2, reply := some .okWrite }))

/-- What the commands leave, each completed before the next. -/
def afterCommands (irqEn : Bool) (ops : List (BitVec 4)) (s : State) : State := ops.foldl (afterCommand irqEn) s

/-- Each of the commands takes two steps, and the next finds the engine idle with the key still usable. -/
theorem run_commandInputs {irqEn : Bool} {rest : List Input} (ops : List (BitVec 4))
    (hops : ∀ op ∈ ops, ¬isReservedOp op) {s : State} (hb : s.busy = false) (hr : s.inReset = false) (hk : s.keyUsable)
    (hi : s.inputs = commandInputs s.cfg irqEn ops ++ rest) :
    core.run (2 * ops.length) s = .next (afterCommands irqEn ops s) := by
  induction ops generalizing s with
  | nil => rfl
  | cons op ops ih =>
    have hdrop : s.inputs.drop 2 = commandInputs s.cfg irqEn ops ++ rest := by rw [hi]; rfl
    obtain ⟨t, hwrite, hturn⟩ := step_command hb hr (decodeOfEncode _) hi
    have hdone : completePending (accept op irqEn { s with inputs := s.inputs.drop 2, reply := some .okWrite }) =
        .next (afterCommand irqEn s op) := completePending_of_keyUsable hk (hops op List.mem_cons_self)
    obtain ⟨⟨_, hlen, _⟩, _, hcfg, hin, _, hres⟩ := completion_frame (completion_of_completePending hdone)
    have hk' : (afterCommand irqEn s op).keyUsable := by rw [State.keyUsable, hcfg, hlen]; exact hk
    calc core.run (2 * ops.length + 2) s
      _ = core.run (2 * ops.length + 1) t := run_succ_of_step hwrite
      _ = core.run (2 * ops.length) (afterCommand irqEn s op) :=
        run_succ_of_step (hturn.trans (by rw [← hdone, hdrop]; rfl))
      _ = .next (afterCommands irqEn ops (afterCommand irqEn s op)) :=
        ih (fun o ho => hops o (List.mem_cons_of_mem op ho)) rfl (hres.trans hr) hk' (by rw [hin, hcfg]; exact hdrop)

/-- Settles O36: as commands the five stages read and write the same registers as inside HOTP. -/
theorem hotpEqualsItsStagesAsCommands : Obligations.HotpEqualsItsStagesAsCommands := by
  intro s irqEn rest hb hr hk write
  refine ⟨_, run_commandInputs (rest := rest) [0x1#4, 0x2#4, 0x3#4, 0x4#4, 0x5#4] (by decide) hb hr hk rfl,
    Eq.trans (run_commandInputs (rest := rest) [0x8#4] (by decide) hb hr hk rfl) (congrArg _ ?_)⟩
  apply State.ext <;> simp [afterCommands, afterCommand, stagesOf, hotpStages, keyBytes_eq]

/-- Settles O37: HOTP as a command reads the counter TSTEP has written, as inside TOTP. -/
theorem totpEqualsTstepThenHotp : Obligations.TotpEqualsTstepThenHotp := by
  intro s irqEn rest hb hr hk write
  refine ⟨_, run_commandInputs (rest := rest) [0x6#4, 0x8#4] (by decide) hb hr hk rfl,
    Eq.trans (run_commandInputs (rest := rest) [0x9#4] (by decide) hb hr hk rfl) (congrArg _ ?_)⟩
  apply State.ext <;> simp [afterCommands, afterCommand, stagesOf, totpStages, hotpStages, keyBytes_eq]

/-! ## The engine's turn with a composite outstanding (60 R185) -/

theorem engineStep_hotp {s : State} (hb : s.busy = true) (hr : s.inReset = false) (hp : s.pending = 0x8#4) :
    engineStep s = withKeyCheck hotpStages s := by
  rw [engineStep, if_pos ⟨hb, hr⟩, completePending, hp]
  rfl

theorem engineStep_totp {s : State} (hb : s.busy = true) (hr : s.inReset = false) (hp : s.pending = 0x9#4) :
    engineStep s = withKeyCheck totpStages s := by
  rw [engineStep, if_pos ⟨hb, hr⟩, completePending, hp]
  rfl

/-! ## Determinism (42 R164, R165) -/

/-- Two completions of HOTP or TOTP leave the same outputs: the error, the five registers that carry a code, and after a
success MSG and COUNTER (42 R164). -/
structure SameOutputs (u w : State) : Prop where
  err : u.err = w.err
  errcode : u.errcode = w.errcode
  digest : u.digest = w.digest
  offset : u.offset = w.offset
  trunc : u.trunc = w.trunc
  code : u.code = w.code
  ascii : u.ascii = w.ascii
  message : u.errcode = 0 → u.msg = w.msg ∧ u.counter = w.counter

/-- HOTP's stages on the same key and COUNTER (42 R164). -/
theorem sameOutputs_hotpStages {s t : State} (hkey : sameKey s t) (hcounter : s.counter = t.counter) :
    SameOutputs (succeed (hotpStages s)) (succeed (hotpStages t)) := by
  have hdigest := hotpDigest_congr hkey hcounter
  rw [hotpStages_eq, hotpStages_eq]
  constructor <;> simp [hdigest, hcounter]

/-- TOTP's stages on the same key and 30-second window (42 R165). -/
theorem sameOutputs_totpStages {s t : State} (hkey : sameKey s t) (htime : s.time.toNat / 30 = t.time.toNat / 30) :
    SameOutputs (succeed (totpStages s)) (succeed (totpStages t)) := by
  have hcounter : timeStep s.time = timeStep t.time :=
    BitVec.eq_of_toNat_eq (by rw [timeStep_toNat, timeStep_toNat, htime])
  exact sameOutputs_hotpStages (s := tstepStage s) (t := tstepStage t) hkey hcounter

/-- The error completion leaves no output of the state before it (60 R186). -/
theorem sameOutputs_failWith {errorCode : BitVec 4} (h : errorCode ≠ 0) (s t : State) :
    SameOutputs (failWith errorCode (clearOutputs s)) (failWith errorCode (clearOutputs t)) :=
  ⟨rfl, rfl, rfl, rfl, rfl, rfl, rfl, fun hz => absurd hz h⟩

/-- The key check decides alike for the same part and KEY_LEN, so the outputs are the same if the stages' are. -/
theorem sameOutputs_withKeyCheck {stages : State → State} {s t : State} (hcfg : s.cfg = t.cfg) (hkey : sameKey s t)
    (h : SameOutputs (succeed (stages s)) (succeed (stages t))) :
    ∃ u w, withKeyCheck stages s = .next u ∧ withKeyCheck stages t = .next w ∧ SameOutputs u w := by
  obtain ⟨hlen, _⟩ := hkey
  have hcheck : cryptoCheck s = cryptoCheck t := cryptoCheck_congr hcfg hlen
  refine ⟨_, _, withKeyCheck_next stages s, withKeyCheck_next stages t, ?_⟩
  rw [hcheck]
  split_ifs with hpass
  · exact h
  · exact sameOutputs_failWith hpass s t

/-- Settles O38: times in one window give the same counter, and the outputs depend on the time through it alone. -/
theorem sameTimeWindowSameCode : Obligations.SameTimeWindowSameCode := by
  intro s t hbs hbt hrs hrt hps hpt hcfg hkey htime
  rw [engineStep_totp hbs hrs hps, engineStep_totp hbt hrt hpt]
  obtain ⟨u, w, hu, hw, hout⟩ := sameOutputs_withKeyCheck hcfg hkey (sameOutputs_totpStages hkey htime)
  exact ⟨u, w, hu, hw, hout.ascii, hout.code, hout.err, hout.errcode⟩

/-- Settles O40: HOTP's outputs by key and counter, TOTP's by key and the window of its time. -/
theorem otpOutputsAreDetermined : Obligations.OtpOutputsAreDetermined := by
  intro s t hbs hbt hrs hrt hpending hcfg hkey hcommand
  have hsame : ∃ u w, engineStep s = .next u ∧ engineStep t = .next w ∧ SameOutputs u w := by
    rcases hcommand with ⟨hp, hcounter⟩ | ⟨hp, htime⟩
    · rw [engineStep_hotp hbs hrs hp, engineStep_hotp hbt hrt (hpending ▸ hp)]
      exact sameOutputs_withKeyCheck hcfg hkey (sameOutputs_hotpStages hkey hcounter)
    · rw [engineStep_totp hbs hrs hp, engineStep_totp hbt hrt (hpending ▸ hp)]
      exact sameOutputs_withKeyCheck hcfg hkey (sameOutputs_totpStages hkey (by rw [htime]))
  obtain ⟨u, w, hu, hw, hout⟩ := hsame
  exact ⟨u, w, hu, hw, hout.errcode, hout.digest, hout.offset, hout.trunc, hout.code, hout.ascii, hout.message⟩

/-! ## The format of the text (42 R167, 60 R204) -/

/-- ASCII and CODE after a completion of HOTP or TOTP (42 R167). -/
def OtpFormat (t : State) : Prop :=
  (t.errcode = 0 → allDigits t.ascii ∧ decimalValue t.ascii = t.code.toNat ∧ t.code.toNat < 1000000) ∧
    (t.errcode ≠ 0 → t.ascii = Vector.replicate 6 0 ∧ ¬allDigits t.ascii)

/-- A success renders a remainder modulo 10^6, which six digits hold (41 R135, R137). -/
theorem otpFormat_hotpStages (s : State) : OtpFormat (succeed (hotpStages s)) := by
  have hcode : (hotpStages s).code.toNat < 1000000 := by
    rw [hotpStages_eq, reduce_toNat]
    exact Nat.mod_lt _ (by decide)
  have hascii : (hotpStages s).ascii = render (hotpStages s).code := by rw [hotpStages_eq]
  refine ⟨fun _ => ?_, fun herr => absurd (succeed_errcode _) herr⟩
  rw [succeed_ascii, succeed_code, hascii, decimalValue_render, Nat.mod_eq_of_lt hcode]
  exact ⟨allDigits_render _, rfl, hcode⟩

/-- A failed key check leaves six 0x00 bytes, and 0x00 is no digit (60 R186, R204). -/
theorem otpFormat_failWith {errorCode : BitVec 4} (h : errorCode ≠ 0) (s : State) :
    OtpFormat (failWith errorCode (clearOutputs s)) :=
  ⟨fun hz => absurd hz h, fun _ => ⟨rfl, (by decide : ¬allDigits (Vector.replicate 6 0))⟩⟩

/-- Passed or failed, the key check leads to the format if the stages do. -/
theorem otpFormat_withKeyCheck {stages : State → State} {s : State} (h : OtpFormat (succeed (stages s))) :
    ∃ t, withKeyCheck stages s = .next t ∧ OtpFormat t := by
  refine ⟨_, withKeyCheck_next stages s, ?_⟩
  split_ifs with hpass
  · exact h
  · exact otpFormat_failWith hpass s

/-- Settles O41: both commands end with HOTP's stages, or with a failed key check. -/
theorem otpFormatInvariant : Obligations.OtpFormatInvariant := by
  rintro s hb hr (hp | hp)
  · rw [engineStep_hotp hb hr hp]
    exact otpFormat_withKeyCheck (otpFormat_hotpStages s)
  · rw [engineStep_totp hb hr hp]
    exact otpFormat_withKeyCheck (otpFormat_hotpStages (tstepStage s))

end Sys2Proof.Machine
end

section
/-! PROOFS. The statements about exceptions (60_exceptions.md): the engine's turn and the completion it makes, what a busy
engine drops, what a failed key check leaves, that no step faults or refuses, and when `irq` rises. -/

namespace Sys2Proof.Machine

/-! ## The engine's turn (60 R185, R188, R201) -/

/-- The engine moves at its turn, and with nothing left to arrive (60 R188, log 3). -/
theorem step_engineTurn {s : State} {rest : List Input}
    (h : (s.inputs = [] ∧ rest = []) ∨ s.inputs = .engine :: rest) :
    step s = engineStep { s with inputs := rest } := by
  rcases h with ⟨hi, rfl⟩ | hi
  · rw [step, turn, hi]
    exact congrArg engineStep (by rw [← hi])
  · rw [step, turn, hi]

/-- Settles O7: the step is the engine's, whose guard is BUSY without reset. -/
theorem engineTurnCompletesThePendingCommand : Obligations.EngineTurnCompletesThePendingCommand := by
  intro s rest h
  rw [step_engineTurn h]
  refine ⟨fun hb hr => if_pos ⟨hb, hr⟩, ?_⟩
  rintro (hb | hr)
  · simp [engineStep, hb]
  · simp [engineStep, hr]

/-- ERR tells whether there is a code, and no code is above 3 (60 R181). -/
theorem completion_errcode {s t : State} (h : Completion s t) :
    (t.err = true ↔ t.errcode ≠ 0) ∧ t.errcode.toNat ≤ 3 := by
  obtain ⟨_, _, ⟨he, hc⟩ | ⟨he, hc | hc | hc⟩⟩ := completion_status h <;> rw [he, hc] <;> decide

/-- Settles O47: the busy engine's turn is a completion, which leaves STATUS by its rule and IRQ_EN as it was. -/
theorem everyAcceptedCommandCompletes : Obligations.EveryAcceptedCommandCompletes := by
  intro s rest hb hr h
  obtain ⟨t, ht, hc⟩ := engineStep_busy (s := { s with inputs := rest }) hb hr
  obtain ⟨hbusy, hdone, _⟩ := completion_status hc
  obtain ⟨herr, hcode⟩ := completion_errcode hc
  obtain ⟨_, _, _, hin, _⟩ := completion_frame hc
  refine ⟨t, (step_engineTurn h).trans ht, hbusy, hdone, herr, hcode, ?_, hin⟩
  rw [State.irq, hdone, Bool.true_and]

/-! ## What a busy engine drops (60 R190, R192) -/

theorem issue_busy {s : State} (hb : s.busy = true) (op : BitVec 4) (irqEn : Bool) :
    issue op irqEn s = dropWrite s := if_pos hb

/-- Settles O34: a command is issued and a configuration write stored behind the same test of BUSY. -/
theorem instructionsWhileBusyAreDropped : Obligations.InstructionsWhileBusyAreDropped := by
  intro i s hi hb
  cases i with
  | srst ignored => exact absurd rfl (hi ignored)
  | cfg irqEn op => exact congrArg Host.Outcome.next (if_pos hb)
  | _ irqEn => exact congrArg Host.Outcome.next (issue_busy hb _ irqEn)

/-- A mapped write is dropped while busy, STATUS's and the soft reset apart (60 R190). -/
theorem busWrite_busy {tgt : Target} {v : Word} {s : State} (hb : s.busy = true) (ht : tgt ≠ .reg .status)
    (hs : tgt = .reg .ctrl → ctrlSrst v = false) : busWrite tgt v s = .next (dropWrite s) := by
  rcases busWrite_cases tgt v s with ⟨hc, e⟩ | ⟨h, _⟩ | ⟨_, _, e⟩
  · rw [e, exec_decode, hs hc, hb]
    rfl
  · exact absurd h ht
  · rw [e, if_pos hb]

/-- Settles O17: the address decode gives each write its target, and `busWrite` judges the target. -/
theorem writesWhileBusyAreDropped : Obligations.WritesWhileBusyAreDropped := by
  intro s v rest hb hr hram
  refine ⟨?_, fun j hj hi => ?_, fun hi => ?_, fun hs hi => ?_⟩
  · rintro ⟨off, r⟩ hp hstatus hctrl hi
    obtain rfl := offsetOf_of_mem hp
    rw [step_writeReg hr hi]
    exact busWrite_busy hb (fun h => hstatus (Target.reg.inj h)) fun h => hctrl (Target.reg.inj h)
  · have hw : keyWindow + 4 * j < windowBytes := by simp only [keyWindow, windowBytes]; omega
    rw [step_writeKey hr hj hw hi]
    exact busWrite_busy hb nofun nofun
  · rw [step_writeReg (r := .status) hr hi]
    exact congrArg Host.Outcome.next (if_pos hb)
  · rw [step_writeCtrl hr hi, exec_decode_srst hs, resetState, hr]
    rfl

/-! ## The failed key check (60 R182, R183, R186) -/

/-- The code of a failed key check: UNAVAILABLE before KEY_IMPORT (60 R183). -/
theorem cryptoCheck_of_not_keyUsable {s : State} (h : ¬s.keyUsable) :
    cryptoCheck s = if s.cfg.cryptoAvailable then 3 else 2 := by
  rcases cryptoCheck_cases s with ⟨_, hc, hl, he⟩ | ⟨e, hc⟩ | ⟨e, hc, _⟩
  · refine absurd ⟨hc, hl, ?_⟩ h
    simpa only [not_and_or, Bool.not_eq_true] using he
  · rw [e, hc]
    rfl
  · rw [e, hc]
    rfl

/-- Without a usable key, a command that uses it completes with the check's code and cleared outputs (60 R186). -/
theorem completePending_of_not_keyUsable {s : State} (hk : ¬s.keyUsable) (hop : usesKey s.pending) :
    completePending s = .next (failWith (if s.cfg.cryptoAvailable then 3 else 2) (clearOutputs s)) := by
  have hcode := cryptoCheck_of_not_keyUsable hk
  have hfail : cryptoCheck s ≠ 0 := by rw [hcode]; split_ifs <;> decide
  obtain ⟨t, ht, _⟩ := completePending_cases s
  rw [ht, ← hcode]
  cases completion_of_completePending ht with
  | keyCheckFailed => rfl
  | mac _ hpass | hotp _ hpass | totp _ hpass => exact absurd hpass hfail
  | enc hp | trunc hp | mod hp | fmt hp | tstep hp => simp [usesKey, hp] at hop
  | reserved hp => rcases hop with hop | hop | hop <;> simp [isReservedOp, hop] at hp

/-- Settles O35: each row of the list is the command of a code that uses the key. -/
theorem failedKeyCheckClearsTheOutputs : Obligations.FailedKeyCheckClearsTheOutputs := by
  intro irqEn s hb hr hk p hp
  obtain ⟨hcmd, hop⟩ : p.1 irqEn = commandOf p.2 irqEn ∧ usesKey p.2 := by
    simp only [List.mem_cons, List.not_mem_nil, or_false] at hp
    rcases hp with rfl | rfl | rfl <;> exact ⟨rfl, by decide⟩
  rw [hcmd, engineStep_acceptedWith hr]
  exact ⟨exec_commandOf_idle hb p.2 irqEn, completePending_of_not_keyUsable hk hop⟩

/-! ## No step faults or refuses (60 R180) -/

theorem engineStep_next (s : State) : ∃ t, engineStep s = .next t := by
  rcases engineStep_cases s with ⟨_, _, e⟩ | ⟨_, e⟩
  · obtain ⟨t, ht, _⟩ := completePending_cases s
    exact ⟨t, e.trans ht⟩
  · exact ⟨s, e⟩

theorem busWrite_next (tgt : Target) (v : Word) (s : State) : ∃ t, busWrite tgt v s = .next t := by
  rcases busWrite_cases tgt v s with ⟨_, e⟩ | ⟨_, e⟩ | ⟨_, _, e⟩
  · exact ⟨_, e.trans (exec_decode v s)⟩
  · exact ⟨_, e⟩
  · exact ⟨_, e⟩

/-- A bus error and an address outside the window are answers too (log 5, log 6). -/
theorem busAccess_next (a : Access) (s : State) : ∃ t, busAccess a s = .next t := by
  unfold busAccess
  split
  · exact ⟨_, rfl⟩
  · split
    · rename_i off _
      rcases busTransaction_cases off a.lanes a.op s with ⟨_, _, e⟩ | ⟨_, _, _, e⟩ | ⟨tgt, v, _, _, e⟩
      · exact ⟨_, e⟩
      · exact ⟨_, e⟩
      · rw [e]
        exact busWrite_next tgt v _
    · exact ⟨_, rfl⟩

theorem waitDone_next (rest : List Input) (s : State) : ∃ t, waitDone rest s = .next t := by
  unfold waitDone
  split_ifs
  · exact ⟨_, rfl⟩
  · exact ⟨_, rfl⟩
  · exact engineStep_next s
  · exact ⟨_, rfl⟩

theorem waitIrq_next (rest : List Input) (s : State) : ∃ t, waitIrq rest s = .next t := by
  unfold waitIrq
  split_ifs
  · exact ⟨_, rfl⟩
  · exact engineStep_next s

/-- Settles O46, input by input. -/
theorem noStepFaultsOrRefuses : Obligations.NoStepFaultsOrRefuses := by
  intro s
  unfold step turn
  cases s.inputs with
  | nil => exact engineStep_next s
  | cons i rest =>
    cases i with
    | bus a => exact busAccess_next a _
    | engine => exact engineStep_next _
    | resetAssert | resetRelease => exact ⟨_, rfl⟩
    | waitDone => exact waitDone_next rest s
    | waitIrq => exact waitIrq_next rest s

/-! ## When `irq` rises (60 R193, R194) -/

/-- A write stored in the key RAM or a register other than STATUS leaves `irq` (10 R41). -/
theorem writeTarget_irq (s : State) (v : Word) {tgt : Target} (hs : tgt ≠ .reg .status) :
    (writeTarget s v tgt).irq = s.irq := by
  cases tgt with
  | keyWord j => rfl
  | reg r =>
    cases r with
    | status => exact absurd rfl hs
    | _ => rfl

/-- The acknowledgement can only lower `irq` (60 R191). -/
theorem irq_of_acknowledge {v : Word} {s : State} (h : (acknowledge v s).irq = true) : s.irq = true := by
  simp only [State.irq, acknowledge_done, acknowledge_irqEn, Bool.and_eq_true] at h ⊢
  obtain ⟨⟨hdone, _⟩, hirqEn⟩ := h
  exact ⟨hdone, hirqEn⟩

/-- A host write that raises `irq` is a configuration write that sets IRQ_EN over DONE (60 R194). -/
theorem hostWrite_raises_irq {tgt : Target} {v : Word} {s t : State} (h : HostWrite tgt v s t) (hs : s.irq = false)
    (ht : t.irq = true) :
    tgt = .reg .ctrl ∧ ctrlSrst v = false ∧ ctrlStart v = false ∧ ctrlIrqEn v = true ∧ s.done = true ∧
      s.busy = false := by
  have keeps : t.irq ≠ s.irq := by rw [hs, ht]; decide
  cases h with
  | softReset | accepted => cases ht
  | configured hb hc hr hg =>
    obtain ⟨hdone, hirqEn⟩ := (Bool.and_eq_true _ _).mp ht
    exact ⟨hc, hr, hg, hirqEn, hdone, hb⟩
  | dropped | ovrCleared => exact absurd rfl keeps
  | acknowledged => exact absurd (irq_of_acknowledge ht) (by simp [hs])
  | stored _ _ hstatus => exact absurd (writeTarget_irq s v hstatus) keeps

/-- Settles O50, along the inversion of `step`: `irq` is 0 in the reset states, a completion is the first alternative, and
the address decode gives the offset of the configuration write. -/
theorem irqRisesOnlyByCompletionOrEnable : Obligations.IrqRisesOnlyByCompletionOrEnable := by
  intro s t h hs ht
  rcases step_cases h with ⟨rest, reply, rfl⟩ | ⟨rest, hb, _, hc⟩ | ⟨a, rest, off, tgt, v, _, hi, ho, hd, hop, hw⟩ |
    ⟨rest, _, rfl⟩ | ⟨rest, _, _, rfl⟩
  · exact absurd (ht.symm.trans hs) (by decide)
  · obtain ⟨hbusy, _⟩ := completion_status (completion_of_completePending hc)
    exact .inl ⟨hb, hbusy⟩
  · obtain ⟨rfl, hsrst, hstart, hirqEn, hdone, hb⟩ := hostWrite_raises_irq (hostWrite_of_busWrite hw) hs ht
    obtain ⟨_, _, ⟨_, ⟨⟩, rfl⟩ | ⟨_, ⟨⟩, _⟩⟩ := busDecode_ok hd
    exact .inr ⟨a, rest, v, hi, hop, ho, hsrst, hstart, hirqEn, hdone, hb⟩
  · cases ht
  · cases ht

end Sys2Proof.Machine
end

section
/-! PROOFS. The statements about reset and hazards (70_reset_and_hazards.md): the invariants after reset, the reset input,
and the boot sequence. -/

namespace Sys2Proof.Machine

/-! ## The reset state (70 R210) -/

/-- The reset state of a legal part is idle, without an error, and its key RAM lists no byte. -/
theorem resetOf_inv {c : Config} (hl : c.legal) : (State.resetOf c).inv :=
  ⟨hl, by simp [State.flagsOk], pendingOk_of_idle rfl, keyOk_of_key_nil rfl⟩

/-- Settles O45: the default part is legal too. -/
theorem resetMeetsTheInvariants : Obligations.ResetMeetsTheInvariants :=
  ⟨fun _ => resetOf_inv, resetOf_inv (by decide : Config.standard.legal)⟩

/-! ## The reset input (70 R210 to R212) -/

theorem step_resetAssert {s : State} {rest : List Input} (hi : s.inputs = .resetAssert :: rest) :
    step s = .next (assertReset { s with inputs := rest }) := by
  rw [step, turn, hi]

/-- The release of the asserted reset input leaves the reset values, and the model's own fields but `inReset`. -/
theorem step_resetRelease {s : State} {rest : List Input} (hr : s.inReset = true)
    (hi : s.inputs = .resetRelease :: rest) :
    step s = .next { resetState { s with inputs := rest } with inReset := false } := by
  rw [step, turn, hi]
  exact congrArg Host.Outcome.next (if_pos hr)

/-- Settles O20: the assertion drops the reply and the release ends the reset, each with the reset values. -/
theorem hardwareResetLeavesTheResetState : Obligations.HardwareResetLeavesTheResetState := by
  intro s rest hi
  rw [run_succ_of_step (step_resetAssert hi), run_succ_of_step (step_resetRelease rfl rfl)]
  rfl

/-- The engine takes no step while reset is asserted (70 R210). -/
theorem engineStep_inReset {s : State} (hr : s.inReset = true) : engineStep s = .next s :=
  if_neg (by simp [hr])

/-- A wait for `irq` ends or goes on, and nothing else moves while reset is asserted. -/
theorem waitIrq_inReset {s : State} (hr : s.inReset = true) (rest : List Input) :
    waitIrq rest s = .next { s with inputs := if s.irq then rest else s.inputs } := by
  rw [waitIrq, engineStep_inReset hr]
  cases s.irq <;> rfl

/-- Settles O21, input by input. -/
theorem nothingMovesWhileResetIsAsserted : Obligations.NothingMovesWhileResetIsAsserted := by
  intro s i rest hr hi hassert hrelease
  rw [step, turn, hi]
  cases i with
  | bus a => exact ⟨rest, none, if_pos hr, .inl rfl, fun _ _ => rfl⟩
  | engine => exact ⟨rest, s.reply, engineStep_inReset hr, .inr rfl, nofun⟩
  | resetAssert => exact absurd rfl hassert
  | resetRelease => exact absurd rfl hrelease
  | waitDone => exact ⟨s.inputs, s.reply, if_pos hr, .inr rfl, nofun⟩
  | waitIrq => exact ⟨_, s.reply, waitIrq_inReset hr rest, .inr rfl, nofun⟩

/-! ## Host programs, statement by statement (30 R88, R89) -/

theorem expandProgram_cons {c : Config} {p : Stmt} {ps : List Stmt} {first others : List Input}
    (hp : expandStmt c p = .next first) (hps : expandProgram c ps = .next others) :
    expandProgram c (p :: ps) = .next (first ++ others) := by
  rw [expandProgram, hp, hps]

theorem loadProgram_of_expandProgram {s : State} {program : List Stmt} {arriving : List Input}
    (h : expandProgram s.cfg program = .next arriving) :
    loadProgram program s = .next { s with inputs := arriving ++ s.inputs } := by
  rw [loadProgram, h]

/-! ## The boot sequence (70 R215) -/

/-- `LDKEY` and then `LDCTR` leave the key's bytes, its length and the counter, and nothing else (30 R89). -/
theorem run_ldkey_ldctr {s : State} {bytes : List Byte} {c : Nat} (hinv : s.inv) (hb : s.busy = false)
    (hr : s.inReset = false) (hlen : bytes.length ≤ s.cfg.keyRamBytes) (hc : c < 2 ^ 64) (rest : List Input) :
    ∃ ldkey ldctr n key, expandStmt s.cfg (.ldkey bytes) = .next ldkey ∧ expandStmt s.cfg (.ldctr c) = .next ldctr ∧
      core.run n { s with inputs := ldkey ++ (ldctr ++ rest) } = .next { s with
        key := key, keyLen := BitVec.ofNat 32 bytes.length, counter := BitVec.ofNat 64 c
        inputs := rest, reply := some .okWrite } ∧
      ∀ i (h : i < bytes.length), Memory.read key i = bytes[i] := by
  obtain ⟨_, hload⟩ := loadStatementsLoadSixtyFourBits c s.cfg
  obtain ⟨ldctr, _, hldctr, _, hruns⟩ := hload hc
  obtain ⟨ldkey, n, key, hldkey, hrunKey, hbytes, _⟩ := ldkeyLoadsTheKey s bytes (ldctr ++ rest) hinv hb hr hlen
  obtain ⟨hrunCtr, _⟩ := hruns
    { s with key := key, keyLen := BitVec.ofNat 32 bytes.length, reply := some .okWrite } rest rfl hb hr
  exact ⟨ldkey, ldctr, n + 2, key, hldkey, hldctr, (run_add n 2 _ _ hrunKey).trans hrunCtr, hbytes⟩

/-- A key that the part can hold, and that is not an empty one it rejects, is usable (60 R182). -/
theorem keyUsable_of_keyLen {s : State} {bytes : List Byte} (hkeyLen : s.keyLen.toNat = bytes.length)
    (havail : s.cfg.cryptoAvailable = true) (hlen : bytes.length ≤ s.cfg.keyRamBytes)
    (hempty : bytes ≠ [] ∨ s.cfg.rejectEmptyKey = false) : s.keyUsable := by
  refine ⟨havail, hkeyLen.trans_le hlen, hempty.imp_left fun hne hzero => hne ?_⟩
  rw [← List.length_eq_zero_iff, ← hkeyLen, hzero]
  rfl

/-- WAITDONE of a busy engine is the completion, and then the poll that reads DONE = 1 (30 R89). -/
theorem run_waitDone {s t : State} {rest : List Input} (ht : engineStep s = .next t) (hf : s.flagsOk)
    (hb : s.busy = true) (hr : s.inReset = false) (hi : s.inputs = .waitDone :: rest) :
    core.run 2 s = .next { t with inputs := rest, reply := some (.okRead (readReg t .status)) } := by
  have hstep : step s = .next t := by simp [step, turn, hi, waitDone, hr, done_of_busy hf hb, hb, ht]
  obtain ⟨t', ht', _, _, _, hpoll⟩ := waitDoneEnds s rest hf hb hr hi
  obtain rfl : t' = t := Host.Outcome.next.inj (ht'.symm.trans hstep)
  rw [run_succ_of_step hstep, run_succ_of_step hpoll]
  rfl

/-- The acceptance clears DONE, ERR and ERRCODE (60 R184). -/
theorem acceptedWith_flagsOk (s : State) (op : BitVec 4) (irqEn : Bool) : (s.acceptedWith op irqEn).flagsOk := by
  simp [State.flagsOk, State.acceptedWith]

/-- `CMD HOTP` and WAITDONE on an idle engine with the usable key `bytes` end with the code of that key and COUNTER
(30 R89, 42 R161). -/
theorem run_hotp_waitDone {s : State} {w : Word} {bytes : List Byte} {rest : List Input} (hb : s.busy = false)
    (hr : s.inReset = false) (hk : s.keyUsable) (hkeyLen : s.keyLen.toNat = bytes.length)
    (hbytes : ∀ i (h : i < bytes.length), s.key.read i = bytes[i]) (hw : decode w = .hotp false)
    (hi : s.inputs = writeRegAt s.cfg .ctrl w :: .waitDone :: rest) :
    ∃ u, core.run 3 s = .next u ∧ u.inputs = rest ∧ u.busy = false ∧ u.done = true ∧ u.err = false ∧
      u.ascii = render (reduce (truncResult (hmacSha1 bytes (bytesBe s.counter.toNat 8)))) := by
  obtain ⟨haccept, key, hlen, hkey, hturn⟩ :=
    hotpRunsItsFiveStages false { s with inputs := .waitDone :: rest, reply := some .okWrite } hb hr hk
  obtain rfl : key = bytes :=
    List.ext_getElem (hlen.trans hkeyLen) fun i h h' => (hkey i h).trans (hbytes i h')
  have hwrite := (step_writeCtrl hr hi).trans (hw ▸ haccept)
  have hwait := run_waitDone hturn (acceptedWith_flagsOk _ 0x8#4 false) rfl hr rfl
  exact ⟨_, (run_succ_of_step hwrite).trans hwait, rfl, rfl, rfl, rfl, rfl⟩

/-- Settles O55: the two loads leave an idle engine with a usable key, and HOTP and WAITDONE do the rest. -/
theorem bootSequenceYieldsTheHotpCode : Obligations.BootSequenceYieldsTheHotpCode := by
  intro s bytes c hinv hb hr hi hlen hc havail hempty
  obtain ⟨w, hcmd, hw⟩ := cmdStatementIsItsCommand s.cfg 0x8#4 false
  obtain ⟨ldkey, ldctr, n, key, hldkey, hldctr, hload, hbytes⟩ :=
    run_ldkey_ldctr hinv hb hr hlen hc [writeRegAt s.cfg .ctrl w, .waitDone]
  have hprogram : expandProgram s.cfg [.ldkey bytes, .ldctr c, .cmd 0x8#4 false, .waitDone] =
      .next (ldkey ++ (ldctr ++ [writeRegAt s.cfg .ctrl w, .waitDone])) :=
    expandProgram_cons hldkey (expandProgram_cons hldctr (expandProgram_cons hcmd rfl))
  have hkeyLen : (BitVec.ofNat 32 bytes.length).toNat = bytes.length := by
    obtain ⟨⟨_, _, _, hmax⟩, _⟩ := hinv
    rw [BitVec.toNat_ofNat]
    omega
  obtain ⟨u, hhotp, hdone⟩ := run_hotp_waitDone (s := { s with
    key := key, keyLen := BitVec.ofNat 32 bytes.length, counter := BitVec.ofNat 64 c
    inputs := [writeRegAt s.cfg .ctrl w, .waitDone], reply := some .okWrite })
    hb hr (keyUsable_of_keyLen hkeyLen havail hlen hempty) hkeyLen hbytes hw rfl
  rw [BitVec.toNat_ofNat, Nat.mod_eq_of_lt hc] at hdone
  refine ⟨_, n + 3, u, loadProgram_of_expandProgram hprogram, ?_, hdone⟩
  rw [hi, List.append_nil]
  exact (run_add n 3 _ _ hload).trans hhotp

end Sys2Proof.Machine
end
